-- ==== Sys2Proof/Word.lean ====
section
/-! DEFINITION. The value widths of the block (spec/00_scope.md section 6.1): every value is an unsigned
integer of a stated width, so every value is a bit vector. -/

namespace Sys2Proof

/-- `u8`: one byte of the secret, of the message or of a digest. -/
abbrev Byte := BitVec 8

/-- `u16`: a port number (rule R13). -/
abbrev Half := BitVec 16

/-- `u32`: one register access, XLEN = 32 bits wide (rule R6). -/
abbrev Word := BitVec 32

/-- `u64`: the tick and the words of the keyed hash. -/
abbrev DWord := BitVec 64

end Sys2Proof
end

