-- ==== Sys2Proof/Config.lean ====
section
/-! DEFINITION. The fixed parameters of the block (spec/00_scope.md rule R6).
The parameters that are plain widths stand in the types: XLEN = 32, TICK_BITS = 64 and SEQ_BITS = 32 are the
widths of `Word`, `DWord` and the register SEQ; SECRET_WORDS = 16, BLOCK_WORDS = 16 and STATE_WORDS = 4 are the
lengths of the register groups S, MSG and H; DIGEST_BYTES = 8 is D_LO with D_HI.
The open parameters of rule R7 (BASE, BUS, LATENCY, NINST) are not modelled: no rule depends on them. -/

namespace Sys2Proof

/-- In which order the bytes of a buffer lie in a number. -/
inductive ByteOrder where
  /-- the lowest-numbered byte is the least significant one -/
  | little
  /-- the lowest-numbered byte is the most significant one -/
  | big
deriving DecidableEq, Repr

namespace Config

/-- NREG: indices 0 to 47 of the register space are mapped (rule R6). -/
def nreg : Nat := 48

/-- SECRET_INDEX: the designated secret word of both packers (rules R6 and R89). -/
def secretIndex : Fin 16 := 15

/-- KEY_BYTES: the key of the keyed hash is the leading bytes of the secret buffer (rules R6 and R73). -/
def keyBytes : Nat := 16

/-- MAXLEN: the largest legal message length of the keyed hash (rules R6 and R77). -/
def maxLen : Nat := 64

/-- PACKED_LEN: how many bytes PACK.S produces (rules R6 and R88). -/
def packedLen : Nat := 16

/-- SHIFT: how far the tick is shifted right before it is added (rules R6 and R94). -/
def shift : Nat := 6

/-- C_ROUNDS: mixing rounds per message word of the keyed hash (rule R6).
UNVERIFIED, unsafe: the spec supplies it from general knowledge (log entry 9). -/
def cRounds : Nat := 2

/-- D_ROUNDS: finalisation rounds of the keyed hash (rule R6).
UNVERIFIED, unsafe: the spec supplies it from general knowledge (log entry 9). -/
def dRounds : Nat := 4

/-- BYTE_VIEW: how the bytes of a buffer lie in its 32-bit registers (rules R6 and R41; log entry 10). -/
def byteView : ByteOrder := .little

/-- BASE_VIEW: how the first four digest bytes form the base in `SipHashStyle` (rules R6 and R97; log entry 10). -/
def baseView : ByteOrder := .little

end Config

end Sys2Proof
end

