-- ==== Sys2Proof/Syntax.lean ====
section
/-! DEFINITION. The commands of the block (spec/opcode_table.json, spec/30_encoding.md rule R57), the names of its
registers (spec/10_state.md rule R11) and the events a host can cause (spec/30_encoding.md rule R61,
spec/10_state.md rule R32). -/

namespace Sys2Proof

/-- The two PRF backends (rules R2 and R56); "only two backends will ever exist". -/
inductive Backend where
  /-- `B = 0`: the compression primitive -/
  | md5Style
  /-- `B = 1`: the keyed hash -/
  | sipHashStyle
deriving DecidableEq, Repr

/-- The nine commands (rule R57). No command has an operand field (rule R59). -/
inductive Instr where
  /-- `NOP` (rule R109) -/
  | nop
  /-- `PACK.M` (rule R87) -/
  | packM
  /-- `PACK.S` (rule R88) -/
  | packS
  /-- `COMPRESS` (rule R67) -/
  | compress
  /-- `KHASH` (rule R80) -/
  | khash
  /-- `SCALE.M` (rule R95) -/
  | scaleM
  /-- `SCALE.S` (rule R96) -/
  | scaleS
  /-- `DERIVE.M` (rule R103) -/
  | deriveM
  /-- `DERIVE.S` (rule R104) -/
  | deriveS
deriving DecidableEq, Repr

/-- The 48 mapped registers by name (rule R11). -/
inductive Reg where
  | cmd
  | status
  | saddr
  | daddr
  | sport
  | dport
  | tickLo
  | tickHi
  | mlen
  | seq
  | dLo
  | dHi
  | h (k : Fin 4)
  | s (k : Fin 16)
  | msg (k : Fin 16)
deriving DecidableEq, Repr

/-- What a host may do with a register (rule R11, the column "Host"). -/
inductive HostAccess where
  /-- read and write -/
  | readWrite
  /-- a write is ignored -/
  | readOnly
  /-- a read returns zero -/
  | writeOnly
  /-- read, and write-one-to-clear -/
  | writeOneToClear
deriving DecidableEq, Repr

/-- One event a host program may ask for (rules R32, R61 and R130). `memRead` and `memWrite` are the accesses of a
platform that maps the block into a byte-addressed bus (rule R36): `offset` is the byte address less BASE, `n` the
width in bytes. Only some of them are defined (rule R39; `HostEvent.wf`). -/
inductive HostEvent where
  /-- `rd x<i>`: RegRead(i) -/
  | regRead (i : BitVec 6)
  /-- `wr x<i>, w`: RegWrite(i, w) -/
  | regWrite (i : BitVec 6) (w : Word)
  /-- MemRead(BASE + offset, n) -/
  | memRead (offset : BitVec 8) (n : Nat)
  /-- MemWrite(BASE + offset, n, w); `w` is what a 4-byte access carries -/
  | memWrite (offset : BitVec 8) (n : Nat) (w : Word)
  /-- the reset event -/
  | reset
deriving DecidableEq, Repr

/-- What reaches the block (rule R32): a host read, a host write or reset. -/
inductive PortEvent where
  | read (i : BitVec 6)
  | write (i : BitVec 6) (w : Word)
  | reset
deriving DecidableEq, Repr

end Sys2Proof
end

