-- ==== Sys2Proof/WellFormed.lean ====
section
/-! DEFINITION. Which terms of the syntax the spec gives a meaning. -/

namespace Sys2Proof

/-- Every command is well formed: no command has a register, immediate, mode or length field that could be out of
range (rules R55 and R59). -/
def Instr.wf : Instr → Bool
  | .nop => true
  | .packM => true
  | .packS => true
  | .compress => true
  | .khash => true
  | .scaleM => true
  | .scaleS => true
  | .deriveM => true
  | .deriveS => true

/-- An access moves one whole 32-bit register (rule R39). -/
def wordWide (n : Nat) : Bool := n == 4

/-- An access stands at a byte address that is a multiple of 4; BASE is one (rules R36 and R39). -/
def wordAligned (offset : BitVec 8) : Bool := offset.extractLsb' 0 2 == 0#2

/-- The events the spec defines (rules R39 and R123): every register access and reset, and of the byte-addressed
accesses those that move one aligned 32-bit register. -/
def HostEvent.wf : HostEvent → Bool
  | .regRead _ => true
  | .regWrite _ _ => true
  | .memRead offset n => wordWide n && wordAligned offset
  | .memWrite offset n _ => wordWide n && wordAligned offset
  | .reset => true

end Sys2Proof
end

