-- ==== Sys2Proof/Decode.lean ====
section
/-! DEFINITION. Decoding and encoding of the command word (spec/30_encoding.md). -/

namespace Sys2Proof

/-- The classes of words that encode no command (rule R58). -/
inductive IllegalWord where
  /-- a bit of `RSV` is set -/
  | reservedBits
  /-- `OP` is 5 to 15 -/
  | reservedOp
  /-- `0x00000010`: `OP = 0` with `B = 1` -/
  | nopOfBackendOne
deriving DecidableEq, Repr

/-- Field `OP`, bits 3:0 (rule R55). -/
def opField (w : Word) : BitVec 4 := w.extractLsb' 0 4

/-- Field `B`, bit 4 (rule R55). -/
def backendField (w : Word) : BitVec 1 := w.extractLsb' 4 1

/-- Field `RSV`, bits 31:5 (rule R55). -/
def reservedField (w : Word) : BitVec 27 := w.extractLsb' 5 27

/-- The backend a bit `B` selects (rule R56). -/
def backendOfBit (b : BitVec 1) : Backend := if b = 0#1 then .md5Style else .sipHashStyle

/-- The bit `B` of a backend (rule R56). -/
def bitOfBackend : Backend → BitVec 1
  | .md5Style => 0#1
  | .sipHashStyle => 1#1

/-- The decoder (rule R63): total on all 2^32 words, rejecting by name. -/
def decode (w : Word) : Except IllegalWord Instr :=
  if reservedField w ≠ 0#27 then .error .reservedBits
  else if opField w = 0#4 then
    match backendOfBit (backendField w) with
    | .md5Style => .ok .nop
    | .sipHashStyle => .error .nopOfBackendOne
  else if opField w = 1#4 then
    match backendOfBit (backendField w) with
    | .md5Style => .ok .packM
    | .sipHashStyle => .ok .packS
  else if opField w = 2#4 then
    match backendOfBit (backendField w) with
    | .md5Style => .ok .compress
    | .sipHashStyle => .ok .khash
  else if opField w = 3#4 then
    match backendOfBit (backendField w) with
    | .md5Style => .ok .scaleM
    | .sipHashStyle => .ok .scaleS
  else if opField w = 4#4 then
    match backendOfBit (backendField w) with
    | .md5Style => .ok .deriveM
    | .sipHashStyle => .ok .deriveS
  else .error .reservedOp

/-- The instruction the decoder reads from the word `w` of an opcode-table row of `nbits` bits. A command is one
32-bit value delivered whole (rule R43), so there is no byte order to lay it out in; bits from `nbits` on are zero,
and a value of more than 32 bits is no command word. -/
def decodeTableWord (nbits w : Nat) : Option Instr :=
  let v := w % 2 ^ nbits
  if v < 2 ^ 32 then
    match decode (BitVec.ofNat 32 v) with
    | .ok i => some i
    | .error _ => none
  else none

/-- The operation field of a command (rule R57, column `OP`). -/
def opOf : Instr → BitVec 4
  | .nop => 0#4
  | .packM => 1#4
  | .packS => 1#4
  | .compress => 2#4
  | .khash => 2#4
  | .scaleM => 3#4
  | .scaleS => 3#4
  | .deriveM => 4#4
  | .deriveS => 4#4

/-- The backend of a command (rule R57, column `B`). -/
def backendOf : Instr → Backend
  | .nop => .md5Style
  | .packM => .md5Style
  | .packS => .sipHashStyle
  | .compress => .md5Style
  | .khash => .sipHashStyle
  | .scaleM => .md5Style
  | .scaleS => .sipHashStyle
  | .deriveM => .md5Style
  | .deriveS => .sipHashStyle

/-- The command word of a command: `RSV` (zero), `B`, `OP` from the high end down (rules R55 and R57). -/
def encode (i : Instr) : Word := 0#27 ++ bitOfBackend (backendOf i) ++ opOf i

end Sys2Proof
end

