-- ==== Sys2Proof/Machine/State.lean ====
section
/-! DEFINITION. The state of the block (spec/10_state.md), what can stop a step, and the state after reset. -/

namespace Sys2Proof.Machine

/-- The architectural state: the registers of rule R11 "and nothing else". `CMD` stores nothing (rule R23), so it has
no field. Widths are the stored widths of rule R11. -/
structure Regs where
  /-- `STATUS.ERR`, bit 0 of index 1 (rule R24) -/
  err : BitVec 1
  /-- `STATUS.CAUSE`, bits 2:1 of index 1 (rule R24) -/
  cause : BitVec 2
  /-- `SADDR`, index 2 (rule R12) -/
  saddr : Word
  /-- `DADDR`, index 3 (rule R12) -/
  daddr : Word
  /-- `SPORT`, index 4 (rule R13) -/
  sport : Half
  /-- `DPORT`, index 5 (rule R13) -/
  dport : Half
  /-- `TICK_LO`, index 6 (rule R15) -/
  tickLo : Word
  /-- `TICK_HI`, index 7 (rule R15) -/
  tickHi : Word
  /-- `MLEN`, index 8 (rule R20) -/
  mlen : BitVec 7
  /-- `SEQ`, index 9 (rule R22) -/
  seq : Word
  /-- `D_LO`, index 10 (rule R21) -/
  dLo : Word
  /-- `D_HI`, index 11 (rule R21) -/
  dHi : Word
  /-- `H[0..3]`, indices 12 to 15 (rule R18) -/
  h : Vector Word 4
  /-- `S[0..15]`, indices 16 to 31 (rule R16) -/
  secret : Vector Word 16
  /-- `MSG[0..15]`, indices 32 to 47 (rule R19) -/
  msg : Vector Word 16
deriving DecidableEq, Repr

/-- An error report with its `info` (rule R113). The hardware records the cause code only; `info` is "for the reader
and for a model's own fault record". -/
inductive Report where
  /-- `KHASH` met `MLEN > 64` (rule R114); the offending length -/
  | invalidLength (n : BitVec 7)
  /-- a word that encodes no command was written to `CMD` (rule R115); the word -/
  | illegalCommand (w : Word)
deriving DecidableEq, Repr

/-- The whole state of the model: the block's registers, and three fields of the MODEL's own.
DESIGN CHOICE, safe: the model's own fields (log entries 1, 3 and 4). -/
structure State where
  /-- the 48 registers (rule R11) -/
  regs : Regs
  /-- the host's events not yet performed, the next one first: "an input of the model, not state of the block"
  (rule R28; log entry 1) -/
  inputs : List HostEvent
  /-- the values RegRead has returned, the newest first: the block's only output (rule R54; log entry 3) -/
  reads : List Word
  /-- every error report raised, the newest first, the ones `STATUS` dropped too; never cleared
  (rule R118; log entry 4) -/
  reports : List Report
deriving DecidableEq, Repr

/-- What stops the machine: nothing. An error report is a next state (rule R118), every access completes and there is
no undefined result (rule R129), so there is no constructor. SAFE: no run ends here. -/
inductive Fault where
deriving DecidableEq, Repr

/-- What the model gives no step. -/
inductive Refusal where
  /-- Raised by `exec` for an instruction without a meaning. SAFE: the model stops. No arm raises it. -/
  | notModelled (mnemonic : String)
  /-- Raised by the access port for an access whose width `n` in bytes is not 4 (rules R39 and R123: "a model refuses
  them"). SAFE: the model stops. -/
  | accessWidth (n : Nat)
  /-- Raised by the access port for a 4-byte access at a byte offset that is no multiple of 4 (rules R39 and R123).
  SAFE: the model stops. -/
  | misalignedAccess (offset : BitVec 8)
deriving DecidableEq, Repr

/-- Every register at zero (rule R29). -/
def Regs.reset : Regs where
  err := 0
  cause := 0
  saddr := 0
  daddr := 0
  sport := 0
  dport := 0
  tickLo := 0
  tickHi := 0
  mlen := 0
  seq := 0
  dLo := 0
  dHi := 0
  h := Vector.replicate 4 0
  secret := Vector.replicate 16 0
  msg := Vector.replicate 16 0

/-- The machine right after reset (rules R29 and R130), with no event asked for, nothing read and nothing reported. -/
def State.reset : State where
  regs := Regs.reset
  inputs := []
  reads := []
  reports := []

end Sys2Proof.Machine
end

