-- ==== Sys2Proof/Machine/Flags.lean ====
section
/-! DEFINITION. The only flags of the block: `STATUS.ERR` with `STATUS.CAUSE` (spec/10_state.md rules R24 and R25).
No arithmetic result is recorded in a flag (rules R8 and R25). -/

namespace Sys2Proof.Machine

/-- `code(E)` (rule R113): `InvalidLength` is 1, `IllegalCommand` is 2. -/
def Report.code : Report → BitVec 2
  | .invalidLength _ => 1#2
  | .illegalCommand _ => 2#2

/-- `STATUS` as the host reads it: `CAUSE` in bits 2:1, `ERR` in bit 0, the reserved bits zero (rules R24 and R37). -/
def Regs.statusWord (r : Regs) : Word := BitVec.setWidth 32 (r.cause ++ r.err)

/-- The bit of a word written to `STATUS` that clears it (rule R110): bit 0, whatever the others are. -/
def clearsStatus (w : Word) : Bool := w.getLsbD 0

end Sys2Proof.Machine
end

