-- ==== Sys2Proof/Machine/Operands.lean ====
section
/-! DEFINITION. Bit and byte operations of the notation (spec/00_scope.md section 6.1), the register map
(spec/10_state.md rule R11), and the fixed operands the commands read (spec/30_encoding.md rule R59): the tick, the
tuple's ports, the designated secret word, the key, the message bytes. -/

namespace Sys2Proof.Machine

/-! ### Notation -/

/-- `rotl32(x, n)` for `0 < n < 32`. -/
def rotl32 (x : Word) (n : Nat) : Word := (x <<< n) ||| (x >>> (32 - n))

/-- `rotl64(x, n)` for `0 < n < 64`. -/
def rotl64 (x : DWord) (n : Nat) : DWord := (x <<< n) ||| (x >>> (64 - n))

/-- `bswap32(x)` is `x[7:0] || x[15:8] || x[23:16] || x[31:24]`. -/
def bswap32 (x : Word) : Word :=
  x.extractLsb' 0 8 ++ x.extractLsb' 8 8 ++ x.extractLsb' 16 8 ++ x.extractLsb' 24 8

/-- The four bytes of a word in a byte order: `BE32(w)` for `.big`, the bytes that `LE32` makes `w` of for `.little`. -/
def wordBytes : ByteOrder → Word → List Byte
  | .little, w => [w.extractLsb' 0 8, w.extractLsb' 8 8, w.extractLsb' 16 8, w.extractLsb' 24 8]
  | .big, w => [w.extractLsb' 24 8, w.extractLsb' 16 8, w.extractLsb' 8 8, w.extractLsb' 0 8]

/-- The two bytes of a half word in a byte order: `BE16(v)` for `.big`. -/
def halfBytes : ByteOrder → Half → List Byte
  | .little, v => [v.extractLsb' 0 8, v.extractLsb' 8 8]
  | .big, v => [v.extractLsb' 8 8, v.extractLsb' 0 8]

/-- The word four bytes make in a byte order: `LE32(b0, b1, b2, b3)` for `.little`. -/
def wordOfBytes : ByteOrder → Byte → Byte → Byte → Byte → Word
  | .little, b0, b1, b2, b3 => b3 ++ b2 ++ b1 ++ b0
  | .big, b0, b1, b2, b3 => b0 ++ b1 ++ b2 ++ b3

/-- `LE64` of at most eight bytes, the missing high bytes zero (rules R73, R76 and R78). -/
def le64 : List Byte → DWord
  | [] => 0#64
  | b :: bs => BitVec.setWidth 64 b ||| (le64 bs <<< 8)

/-! ### The register map -/

/-- The register at an index of the register space; none for the unmapped indices 48 to 63 (rules R11 and R35). -/
def regOfIndex (i : BitVec 6) : Option Reg :=
  if i.toNat < 12 then
    match i.toNat with
    | 0 => some .cmd
    | 1 => some .status
    | 2 => some .saddr
    | 3 => some .daddr
    | 4 => some .sport
    | 5 => some .dport
    | 6 => some .tickLo
    | 7 => some .tickHi
    | 8 => some .mlen
    | 9 => some .seq
    | 10 => some .dLo
    | _ => some .dHi
  else if i.toNat < 16 then some (.h (Fin.ofNat 4 (i.toNat - 12)))
  else if i.toNat < 32 then some (.s (Fin.ofNat 16 (i.toNat - 16)))
  else if i.toNat < Config.nreg then some (.msg (Fin.ofNat 16 (i.toNat - 32)))
  else none

/-- The index of a register: "`H[i]` has index `12+i`, `S[i]` has index `16+i`, `MSG[i]` has index `32+i`" (rule R11). -/
def indexOfReg : Reg → BitVec 6
  | .cmd => 0#6
  | .status => 1#6
  | .saddr => 2#6
  | .daddr => 3#6
  | .sport => 4#6
  | .dport => 5#6
  | .tickLo => 6#6
  | .tickHi => 7#6
  | .mlen => 8#6
  | .seq => 9#6
  | .dLo => 10#6
  | .dHi => 11#6
  | .h k => BitVec.ofNat 6 (12 + k.val)
  | .s k => BitVec.ofNat 6 (16 + k.val)
  | .msg k => BitVec.ofNat 6 (32 + k.val)

/-- How many bits a register keeps (rules R11 and R33). -/
def storedBits : Reg → Nat
  | .cmd => 0
  | .status => 3
  | .sport => 16
  | .dport => 16
  | .mlen => 7
  | _ => 32

/-- What the host may do with a register (rule R11, the column "Host"). -/
def hostAccess : Reg → HostAccess
  | .cmd => .writeOnly
  | .status => .writeOneToClear
  | .seq => .readOnly
  | _ => .readWrite

/-! ### The operands of the commands -/

/-- `TICK = TICK_HI || TICK_LO` (rule R15). -/
def Regs.tick (r : Regs) : DWord := r.tickHi ++ r.tickLo

/-- `SPORT || DPORT`: the source port in bits 31:16, the destination port in bits 15:0 (rule R87). -/
def Regs.ports (r : Regs) : Word := r.sport ++ r.dport

/-- The designated secret word, `S[15]` (rule R89). -/
def Regs.designated (r : Regs) : Word := r.secret[Config.secretIndex]

/-- `SB[0..63]`, the secret buffer seen as bytes (rules R16 and R41). -/
def Regs.secretBytes (r : Regs) : List Byte := r.secret.toList.flatMap (wordBytes Config.byteView)

/-- `M[0..63]`, the message buffer seen as bytes (rules R19 and R41). -/
def Regs.messageBytes (r : Regs) : List Byte := r.msg.toList.flatMap (wordBytes Config.byteView)

/-- `out[0..7]`, the digest seen as bytes (rules R21 and R41). -/
def Regs.digestBytes (r : Regs) : List Byte := wordBytes Config.byteView r.dLo ++ wordBytes Config.byteView r.dHi

/-- The key of the keyed hash: "the secret buffer's leading 16 bytes" (rule R73). -/
def Regs.key (r : Regs) : List Byte := r.secretBytes.take Config.keyBytes

/-- The message `KHASH` hashes: `M[0 .. n-1]` with `n = MLEN` (rule R80). -/
def Regs.message (r : Regs) : List Byte := r.messageBytes.take r.mlen.toNat

/-- The base in `SipHashStyle`: the first four digest bytes `out[0..3]` as a number in the order `view` (rule R97). -/
def Regs.digestBase (view : ByteOrder) (r : Regs) : Word :=
  match r.digestBytes with
  | b0 :: b1 :: b2 :: b3 :: _ => wordOfBytes view b0 b1 b2 b3
  | _ => 0#32

end Sys2Proof.Machine
end

