-- ==== Sys2Proof/Machine/Ops.lean ====
section
/-! DEFINITION. The named operations on the registers, and the error report with its acknowledgement
(spec/60_exceptions.md), which is the only exception mechanism of the block. -/

namespace Sys2Proof.Machine

/-! ### Storing a register -/

def Regs.setStatus (r : Regs) (err : BitVec 1) (cause : BitVec 2) : Regs := { r with err := err, cause := cause }
def Regs.setSaddr (r : Regs) (v : Word) : Regs := { r with saddr := v }
def Regs.setDaddr (r : Regs) (v : Word) : Regs := { r with daddr := v }
def Regs.setSport (r : Regs) (v : Half) : Regs := { r with sport := v }
def Regs.setDport (r : Regs) (v : Half) : Regs := { r with dport := v }
def Regs.setTickLo (r : Regs) (v : Word) : Regs := { r with tickLo := v }
def Regs.setTickHi (r : Regs) (v : Word) : Regs := { r with tickHi := v }
def Regs.setMlen (r : Regs) (v : BitVec 7) : Regs := { r with mlen := v }
def Regs.setSeq (r : Regs) (v : Word) : Regs := { r with seq := v }
def Regs.setDLo (r : Regs) (v : Word) : Regs := { r with dLo := v }
def Regs.setDHi (r : Regs) (v : Word) : Regs := { r with dHi := v }
def Regs.setH (r : Regs) (v : Vector Word 4) : Regs := { r with h := v }
def Regs.setSecret (r : Regs) (v : Vector Word 16) : Regs := { r with secret := v }
def Regs.setMsg (r : Regs) (v : Vector Word 16) : Regs := { r with msg := v }

/-! ### The parts of the state -/

/-- The registers replaced. -/
def State.withRegs (s : State) (r : Regs) : State := { s with regs := r }

/-- The host's remaining events replaced. -/
def State.withInputs (s : State) (es : List HostEvent) : State := { s with inputs := es }

/-- A value returned on the access port (rule R54; log entry 3). -/
def State.pushRead (s : State) (w : Word) : State := { s with reads := w :: s.reads }

/-- A report entered in the model's own fault record (rule R118; log entry 4). -/
def State.record (s : State) (e : Report) : State := { s with reports := e :: s.reports }

/-! ### Host access to one register -/

/-- What `RegRead` returns for a mapped register (rule R37): the stored value zero-extended (rule R33). -/
def readReg : Reg → Regs → Word
  | .cmd, _ => 0#32
  | .status, r => r.statusWord
  | .saddr, r => r.saddr
  | .daddr, r => r.daddr
  | .sport, r => BitVec.setWidth 32 r.sport
  | .dport, r => BitVec.setWidth 32 r.dport
  | .tickLo, r => r.tickLo
  | .tickHi, r => r.tickHi
  | .mlen, r => BitVec.setWidth 32 r.mlen
  | .seq, r => r.seq
  | .dLo, r => r.dLo
  | .dHi, r => r.dHi
  | .h k, r => r.h[k]
  | .s k, r => r.secret[k]
  | .msg k, r => r.msg[k]

/-- The acknowledgement of an error report, the only return from one: `ERR <- 0 ; CAUSE <- 0` (rules R110 and R119). -/
def Regs.acknowledge (r : Regs) : Regs := r.setStatus 0#1 0#2

/-- What `RegWrite` stores in a mapped register (rule R38). A write to `CMD` stores nothing (rule R23): the command
it starts is `Machine/Port.lean`'s. A write to `SEQ` is ignored. -/
def writeReg : Reg → Word → Regs → Regs
  | .cmd, _, r => r
  | .status, w, r => if clearsStatus w then r.acknowledge else r
  | .saddr, w, r => r.setSaddr w
  | .daddr, w, r => r.setDaddr w
  | .sport, w, r => r.setSport (w.extractLsb' 0 16)
  | .dport, w, r => r.setDport (w.extractLsb' 0 16)
  | .tickLo, w, r => r.setTickLo w
  | .tickHi, w, r => r.setTickHi w
  | .mlen, w, r => r.setMlen (w.extractLsb' 0 7)
  | .seq, _, r => r
  | .dLo, w, r => r.setDLo w
  | .dHi, w, r => r.setDHi w
  | .h k, w, r => r.setH (r.h.set k w)
  | .s k, w, r => r.setSecret (r.secret.set k w)
  | .msg k, w, r => r.setMsg (r.msg.set k w)

/-! ### The error report -/

/-- `raise E(info)` (rule R113): the first error since `ERR` was last clear owns `CAUSE`, a later one is dropped; no
other register changes. The model's own record takes every report, the dropped ones too (rule R118). -/
def raise (e : Report) (s : State) : State :=
  if s.regs.err = 0#1 then (s.withRegs (s.regs.setStatus 1#1 e.code)).record e
  else s.record e

/-- The reset event (rules R29 and R130): every register to zero in one step. The model's own fields stay
(log entry 12). -/
def resetEvent (s : State) : State := s.withRegs Regs.reset

end Sys2Proof.Machine
end

