-- ==== Sys2Proof/Machine/Compress.lean ====
section
/-! DEFINITION. The compression primitive and the command COMPRESS (spec/40_compress.md).
UNVERIFIED, unsafe: the numbers of this file are the spec's, which has them from general knowledge (log entry 8). -/

namespace Sys2Proof.Machine

/-- The four working words of `compress` (rule R65). -/
structure Work where
  a : Word
  b : Word
  c : Word
  d : Word
deriving DecidableEq, Repr

/-- `F_r(b, c, d)` of the round `r = i div 16` of step `i` (rule R65). -/
def roundFunction (i : Nat) (b c d : Word) : Word :=
  if i < 16 then (b &&& c) ||| (~~~b &&& d)
  else if i < 32 then (d &&& b) ||| (~~~d &&& c)
  else if i < 48 then b ^^^ c ^^^ d
  else c ^^^ (b ||| ~~~d)

/-- `g(i)`, the block word of step `i` (rule R65). -/
def blockIndex (i : Nat) : Fin 16 :=
  if i < 16 then Fin.ofNat 16 i
  else if i < 32 then Fin.ofNat 16 (5 * i + 1)
  else if i < 48 then Fin.ofNat 16 (3 * i + 5)
  else Fin.ofNat 16 (7 * i)

/-- The rotation amounts of a round for `i mod 4 = 0, 1, 2, 3` (rule R65). -/
def roundRotations (i : Nat) : Vector Nat 4 :=
  if i < 16 then #v[7, 12, 17, 22]
  else if i < 32 then #v[5, 9, 14, 20]
  else if i < 48 then #v[4, 11, 16, 23]
  else #v[6, 10, 15, 21]

/-- `s[i]`, the rotation amount of step `i` (rule R65). -/
def rotationAmount (i : Nat) : Nat := (roundRotations i)[Fin.ofNat 4 i]

/-- `K[0..15]` (rule R65). -/
def kRound0 : List Word :=
  [0xd76aa478#32, 0xe8c7b756#32, 0x242070db#32, 0xc1bdceee#32, 0xf57c0faf#32, 0x4787c62a#32, 0xa8304613#32, 0xfd469501#32,
   0x698098d8#32, 0x8b44f7af#32, 0xffff5bb1#32, 0x895cd7be#32, 0x6b901122#32, 0xfd987193#32, 0xa679438e#32, 0x49b40821#32]

/-- `K[16..31]` (rule R65). -/
def kRound1 : List Word :=
  [0xf61e2562#32, 0xc040b340#32, 0x265e5a51#32, 0xe9b6c7aa#32, 0xd62f105d#32, 0x02441453#32, 0xd8a1e681#32, 0xe7d3fbc8#32,
   0x21e1cde6#32, 0xc33707d6#32, 0xf4d50d87#32, 0x455a14ed#32, 0xa9e3e905#32, 0xfcefa3f8#32, 0x676f02d9#32, 0x8d2a4c8a#32]

/-- `K[32..47]` (rule R65). -/
def kRound2 : List Word :=
  [0xfffa3942#32, 0x8771f681#32, 0x6d9d6122#32, 0xfde5380c#32, 0xa4beea44#32, 0x4bdecfa9#32, 0xf6bb4b60#32, 0xbebfbc70#32,
   0x289b7ec6#32, 0xeaa127fa#32, 0xd4ef3085#32, 0x04881d05#32, 0xd9d4d039#32, 0xe6db99e5#32, 0x1fa27cf8#32, 0xc4ac5665#32]

/-- `K[48..63]` (rule R65). -/
def kRound3 : List Word :=
  [0xf4292244#32, 0x432aff97#32, 0xab9423a7#32, 0xfc93a039#32, 0x655b59c3#32, 0x8f0ccc92#32, 0xffeff47d#32, 0x85845dd1#32,
   0x6fa87e4f#32, 0xfe2ce6e0#32, 0xa3014314#32, 0x4e0811a1#32, 0xf7537e82#32, 0xbd3af235#32, 0x2ad7d2bb#32, 0xeb86d391#32]

/-- `K[i]`, the additive constant of step `i`, `0 <= i <= 63` (rule R65). -/
def additiveConstant (i : Nat) : Word := (kRound0 ++ kRound1 ++ kRound2 ++ kRound3).getD i 0#32

/-- Step `i` of `compress` with the block `x` (rule R65). -/
def compressStep (x : Vector Word 16) (i : Nat) (w : Work) : Work :=
  let t := w.a + roundFunction i w.b w.c w.d + additiveConstant i + x[blockIndex i]
  { a := w.d, b := w.b + rotl32 t (rotationAmount i), c := w.b, d := w.c }

/-- The working words before step `n`, that is after the steps 0 to `n - 1`, from the working words `w` (rule R65). -/
def compressSteps (x : Vector Word 16) (w : Work) : Nat → Work
  | 0 => w
  | n + 1 => compressStep x n (compressSteps x w n)

/-- The working words at the start: `h[0], h[1], h[2], h[3]` (rule R65). -/
def startWork (h : Vector Word 4) : Work := { a := h[0], b := h[1], c := h[2], d := h[3] }

/-- `compress(h, x)` (rules R64 to R66): 64 steps, then the input state is added word by word. -/
def compress (h : Vector Word 4) (x : Vector Word 16) : Vector Word 4 :=
  let w := compressSteps x (startWork h) 64
  #v[h[0] + w.a, h[1] + w.b, h[2] + w.c, h[3] + w.d]

/-- `H <- compress(H, S)` (rule R67). -/
def compressH (r : Regs) : Regs := r.setH (compress r.h r.secret)

/-- `COMPRESS` (rule R67). -/
def execCompress (s : State) : Host.Outcome State Fault Refusal := .next (s.withRegs (compressH s.regs))

end Sys2Proof.Machine
end

