-- ==== Sys2Proof/Machine/Khash.lean ====
section
/-! DEFINITION. The short-input keyed hash and the command KHASH (spec/41_khash.md).
UNVERIFIED, unsafe: the numbers of this file are the spec's, which has them from general knowledge (log entry 9). -/

namespace Sys2Proof.Machine

/-- The state of the keyed hash, four 64-bit words (rule R72). -/
structure SipState where
  v0 : DWord
  v1 : DWord
  v2 : DWord
  v3 : DWord
deriving DecidableEq, Repr

/-- The initialisation from the two key words (rule R74). -/
def sipInit (k0 k1 : DWord) : SipState where
  v0 := k0 ^^^ 0x736f6d6570736575#64
  v1 := k1 ^^^ 0x646f72616e646f6d#64
  v2 := k0 ^^^ 0x6c7967656e657261#64
  v3 := k1 ^^^ 0x7465646279746573#64

/-- `SipRound` (rule R75): fourteen operations, each on the values left by the ones before it. -/
def sipRound (v : SipState) : SipState :=
  let v0 := v.v0 + v.v1
  let v1 := rotl64 v.v1 13
  let v1 := v1 ^^^ v0
  let v0 := rotl64 v0 32
  let v2 := v.v2 + v.v3
  let v3 := rotl64 v.v3 16
  let v3 := v3 ^^^ v2
  let v0 := v0 + v3
  let v3 := rotl64 v3 21
  let v3 := v3 ^^^ v0
  let v2 := v2 + v1
  let v1 := rotl64 v1 17
  let v1 := v1 ^^^ v2
  let v2 := rotl64 v2 32
  { v0 := v0, v1 := v1, v2 := v2, v3 := v3 }

/-- `SipRound`, `n` times. -/
def sipRounds : Nat → SipState → SipState
  | 0, v => v
  | n + 1, v => sipRounds n (sipRound v)

/-- One 64-bit word into the state, with `c` rounds between the two injections (rules R76 and R78). -/
def inject (c : Nat) (v : SipState) (m : DWord) : SipState :=
  let v := sipRounds c { v with v3 := v.v3 ^^^ m }
  { v with v0 := v.v0 ^^^ m }

/-- `mj = LE64(m[8j], ..., m[8j+7])` (rule R76). -/
def messageWord (m : List Byte) (j : Nat) : DWord := le64 ((m.drop (8 * j)).take 8)

/-- The whole words `m0 .. m(q-1)` of a message, `q = n div 8` (rule R76). -/
def wholeWords (m : List Byte) : List DWord := (List.range (m.length / 8)).map (messageWord m)

/-- `bf`, the final block: the length in the top byte, the `n mod 8` leftover bytes in the low ones (rule R78). -/
def finalBlock (m : List Byte) : DWord :=
  (BitVec.ofNat 64 (m.length % 256) <<< 56) ||| le64 (m.drop (8 * (m.length / 8)))

/-- The finalisation and the fold (rule R79), with `d` rounds. -/
def sipFinish (d : Nat) (v : SipState) : DWord :=
  let v := sipRounds d { v with v2 := v.v2 ^^^ 0xff#64 }
  v.v0 ^^^ v.v1 ^^^ v.v2 ^^^ v.v3

/-- The keyed hash on the words of a message, the final block the last of them (rules R74 to R79). -/
def sipHash (c d : Nat) (k0 k1 : DWord) (blocks : List DWord) : DWord :=
  sipFinish d (blocks.foldl (inject c) (sipInit k0 k1))

/-- `keyed_hash` (rules R72 to R79) with `c` rounds per word and `d` at finalisation: the key's bytes as two words
(rule R73), the message's whole words, and the final block, always (rule R78). -/
def keyedHash (c d : Nat) (key message : List Byte) : DWord :=
  sipHash c d (le64 (key.take 8)) (le64 (key.drop 8)) (wholeWords message ++ [finalBlock message])

/-- `d` for the registers as they stand (rule R80). -/
def Regs.digest (r : Regs) : DWord := keyedHash Config.cRounds Config.dRounds r.key r.message

/-- The word of the digest registers that holds the four bytes of `d` from bit `lo` on (rules R21, R41 and R79). -/
def digestWord (d : DWord) (lo : Nat) : Word :=
  wordOfBytes Config.byteView (d.extractLsb' lo 8) (d.extractLsb' (lo + 8) 8) (d.extractLsb' (lo + 16) 8)
    (d.extractLsb' (lo + 24) 8)

/-- `D_LO <- d[31:0] ; D_HI <- d[63:32]` (rule R80). -/
def storeDigest (d : DWord) (r : Regs) : Regs := (r.setDLo (digestWord d 0)).setDHi (digestWord d 32)

/-- The body of `KHASH` (rules R77 and R80): a length above 64 is reported and nothing else is written. -/
def khash (s : State) : State :=
  if Config.maxLen < s.regs.mlen.toNat then raise (.invalidLength s.regs.mlen) s
  else s.withRegs (storeDigest s.regs.digest s.regs)

/-- `KHASH` (rule R80). -/
def execKhash (s : State) : Host.Outcome State Fault Refusal := .next (khash s)

end Sys2Proof.Machine
end

