-- ==== Sys2Proof/Machine/Pack.lean ====
section
/-! DEFINITION. The tuple packer and the commands PACK.M and PACK.S (spec/42_pack.md). -/

namespace Sys2Proof.Machine

/-- `H <- (SADDR, DADDR, SPORT || DPORT, S[15])` (rules R87 and R90). -/
def packM (r : Regs) : Regs := r.setH #v[r.saddr, r.daddr, r.ports, r.designated]

/-- The 16 bytes of the `SipHashStyle` layout (rules R88 and R90): each field most significant byte first. -/
def packedBytes (r : Regs) : List Byte :=
  wordBytes .big r.saddr ++ wordBytes .big r.daddr ++ halfBytes .big r.sport ++ halfBytes .big r.dport
    ++ wordBytes .big r.designated

/-- The register that holds four consecutive bytes of a buffer, from the byte `4j` on (rule R41). -/
def bufferWord (bytes : List Byte) (j : Nat) : Word :=
  wordOfBytes Config.byteView (bytes.getD (4 * j) 0#8) (bytes.getD (4 * j + 1) 0#8) (bytes.getD (4 * j + 2) 0#8)
    (bytes.getD (4 * j + 3) 0#8)

/-- `M[0..15] <- bytes`: the first four message registers take 16 bytes, the others keep theirs (rule R88). -/
def storePacked (bytes : List Byte) (m : Vector Word 16) : Vector Word 16 :=
  (((m.set 0 (bufferWord bytes 0)).set 1 (bufferWord bytes 1)).set 2 (bufferWord bytes 2)).set 3 (bufferWord bytes 3)

/-- `M[0..15] <-` the packed tuple, `MLEN <- 16` (rule R88). -/
def packS (r : Regs) : Regs :=
  (r.setMsg (storePacked (packedBytes r) r.msg)).setMlen (BitVec.ofNat 7 Config.packedLen)

/-- `PACK.M` (rule R87). -/
def execPackM (s : State) : Host.Outcome State Fault Refusal := .next (s.withRegs (packM s.regs))

/-- `PACK.S` (rule R88). -/
def execPackS (s : State) : Host.Outcome State Fault Refusal := .next (s.withRegs (packS s.regs))

end Sys2Proof.Machine
end

