-- ==== Sys2Proof/Machine/Scale.lean ====
section
/-! DEFINITION. The time-scaled offset combiner and the commands SCALE.M and SCALE.S (spec/43_scale.md). -/

namespace Sys2Proof.Machine

/-- `trunc_32(tick >> 6)`: shift at 64 bits, then truncate (rule R94). -/
def tickOffset (tick : DWord) : Word := BitVec.setWidth 32 (tick >>> Config.shift)

/-- `scale(base, tick) = base +_32 trunc_32(tick >> 6)` (rule R94). -/
def scale (base : Word) (tick : DWord) : Word := base + tickOffset tick

/-- `SEQ <- scale(H[0], TICK)` (rule R95). -/
def scaleM (r : Regs) : Regs := r.setSeq (scale r.h[0] r.tick)

/-- `SEQ <- scale(D_LO, TICK)` (rules R96 and R97): the base is `out[0..3]` in the order BASE_VIEW. -/
def scaleS (r : Regs) : Regs := r.setSeq (scale (r.digestBase Config.baseView) r.tick)

/-- `SCALE.M` (rule R95). -/
def execScaleM (s : State) : Host.Outcome State Fault Refusal := .next (s.withRegs (scaleM s.regs))

/-- `SCALE.S` (rule R96). -/
def execScaleS (s : State) : Host.Outcome State Fault Refusal := .next (s.withRegs (scaleS s.regs))

end Sys2Proof.Machine
end

