-- ==== Sys2Proof/Machine/Derive.lean ====
section
/-! DEFINITION. The sequence-number derivation and the commands DERIVE.M and DERIVE.S (spec/44_derive.md). -/

namespace Sys2Proof.Machine

/-- The three phases of `MD5Style` in order, each seeing the register writes of the one before (rule R103). -/
def deriveM (s : State) : State := s.withRegs (scaleM (compressH (packM s.regs)))

/-- The three phases of `SipHashStyle` in order, each seeing the register writes of the one before (rule R104). -/
def deriveS (s : State) : State :=
  let hashed := khash (s.withRegs (packS s.regs))
  hashed.withRegs (scaleS hashed.regs)

/-- `DERIVE.M` (rule R103). -/
def execDeriveM (s : State) : Host.Outcome State Fault Refusal := .next (deriveM s)

/-- `DERIVE.S` (rule R104). -/
def execDeriveS (s : State) : Host.Outcome State Fault Refusal := .next (deriveS s)

end Sys2Proof.Machine
end

