-- ==== Sys2Proof/Machine/System.lean ====
section
/-! DEFINITION. The command NOP (spec/45_system.md). -/

namespace Sys2Proof.Machine

/-- `NOP` (rule R109): "leaves every register as it was"; it does not clear `STATUS`. -/
def execNop (s : State) : Host.Outcome State Fault Refusal := .next s

end Sys2Proof.Machine
end

