-- ==== Sys2Proof/Machine/Dispatch.lean ====
section
/-! DEFINITION. One arm per command. -/

namespace Sys2Proof.Machine

/-- The meaning of a command (rule R63). -/
def exec (i : Instr) (s : State) : Host.Outcome State Fault Refusal :=
  match i with
  | .nop => Sys2Proof.Machine.execNop s
  | .packM => Sys2Proof.Machine.execPackM s
  | .packS => Sys2Proof.Machine.execPackS s
  | .compress => Sys2Proof.Machine.execCompress s
  | .khash => Sys2Proof.Machine.execKhash s
  | .scaleM => Sys2Proof.Machine.execScaleM s
  | .scaleS => Sys2Proof.Machine.execScaleS s
  | .deriveM => Sys2Proof.Machine.execDeriveM s
  | .deriveS => Sys2Proof.Machine.execDeriveS s

end Sys2Proof.Machine
end

