-- ==== Sys2Proof/Machine/Port.lean ====
section
/-! DEFINITION. The access port (spec/20_memory.md): the host's two primitives, the execution of a command word, the
byte-addressed view, and one event. -/

namespace Sys2Proof.Machine

/-- `Execute(w)` (rule R63): the command `w` encodes, or the report `IllegalCommand` (rules R58 and R115). -/
def execute (w : Word) (s : State) : Host.Outcome State Fault Refusal :=
  match decode w with
  | .ok i => exec i s
  | .error _ => .next (raise (.illegalCommand w) s)

/-- The value `RegRead(i)` returns (rule R37); zero for an unmapped index. -/
def regReadValue (i : BitVec 6) (r : Regs) : Word :=
  match regOfIndex i with
  | some reg => readReg reg r
  | none => 0#32

/-- `RegRead(i)` (rule R37): changes no register. -/
def regRead (i : BitVec 6) (s : State) : State := s.pushRead (regReadValue i s.regs)

/-- `RegWrite(i, w)` (rule R38): a write to `CMD` executes, a write to an unmapped index is ignored. -/
def regWrite (i : BitVec 6) (w : Word) (s : State) : Host.Outcome State Fault Refusal :=
  match regOfIndex i with
  | some .cmd => execute w s
  | some reg => .next (s.withRegs (writeReg reg w s.regs))
  | none => .next s

/-- The register index of a byte offset from BASE: `(addr - BASE) / 4` (rule R36). -/
def indexOfOffset (offset : BitVec 8) : BitVec 6 := offset.extractLsb' 2 6

/-- What a host event asks of the port (rules R36 and R39; log entry 7): a byte-addressed access is the register
access of its index if it is 4 bytes wide and aligned, and is refused otherwise. -/
def resolve : HostEvent → Except Refusal PortEvent
  | .regRead i => .ok (.read i)
  | .regWrite i w => .ok (.write i w)
  | .memRead offset n =>
    if wordWide n then
      if wordAligned offset then .ok (.read (indexOfOffset offset)) else .error (.misalignedAccess offset)
    else .error (.accessWidth n)
  | .memWrite offset n w =>
    if wordWide n then
      if wordAligned offset then .ok (.write (indexOfOffset offset) w) else .error (.misalignedAccess offset)
    else .error (.accessWidth n)
  | .reset => .ok .reset

/-- One step of the block: a host read, a host write with any command it starts, or reset (rule R32). -/
def perform : PortEvent → State → Host.Outcome State Fault Refusal
  | .read i, s => .next (regRead i s)
  | .write i w, s => regWrite i w s
  | .reset, s => .next (resetEvent s)

/-- The next event of the host, if there is one (rule R45). With none the block is idle and holds its registers
(rules R31 and R128; log entry 2). -/
def nextEvent (s : State) : Host.Outcome State Fault Refusal :=
  match s.inputs with
  | [] => .next s
  | e :: rest =>
    match resolve e with
    | .ok p => perform p (s.withInputs rest)
    | .error r => .refused r

/-- The event that delivers the command word `w` of an opcode-table row of `nbits` bits: a write to `CMD`
(rules R23 and R43), the bits from `nbits` on zero. -/
def commandEvent (nbits w : Nat) : HostEvent := .regWrite 0#6 (BitVec.ofNat 32 (w % 2 ^ nbits))

end Sys2Proof.Machine
end

