-- ==== Sys2Proof/Machine/Step.lean ====
section
/-! DEFINITION. One step of the machine. -/

namespace Sys2Proof.Machine

/-- One step (rule R32): the host's next event is performed whole. -/
def step (s : State) : Host.Outcome State Fault Refusal := nextEvent s

/-- `s` with the command word placed where the next step takes it: as the host's next event, a write to `CMD`.
A command is not fetched (rule R14), it is delivered by the write that starts it (log entry 1). -/
def State.withFetchWord (s : State) (nbits w : Nat) : State := s.withInputs (commandEvent nbits w :: s.inputs)

end Sys2Proof.Machine
end

