-- ==== Sys2Proof/Machine/HostProgram.lean ====
section
/-! DEFINITION. The assembler's lines and pseudo-instructions (spec/30_encoding.md rules R61 and R62): each is the list
of host events it stands for. -/

namespace Sys2Proof.Machine

/-- `wr <reg>, <value>` (rule R61). -/
def asmWr (reg : Reg) (v : Word) : List HostEvent := [.regWrite (indexOfReg reg) v]

/-- `rd <reg>` (rule R61). -/
def asmRd (reg : Reg) : List HostEvent := [.regRead (indexOfReg reg)]

/-- `reset` (rule R61). -/
def asmReset : List HostEvent := [.reset]

/-- `cmd <mnemonic>` (rule R62). -/
def asmCmd (i : Instr) : List HostEvent := asmWr .cmd (encode i)

/-- `tuple <sa>, <da>, <sp>, <dp>` (rule R62). -/
def asmTuple (sa da sp dp : Word) : List HostEvent :=
  asmWr .saddr sa ++ asmWr .daddr da ++ asmWr .sport sp ++ asmWr .dport dp

/-- `tick <t>` (rule R62): the low half first. -/
def asmTick (t : DWord) : List HostEvent :=
  asmWr .tickLo (t.extractLsb' 0 32) ++ asmWr .tickHi (t.extractLsb' 32 32)

/-- `secret <w0>, ..., <w15>` (rule R62): sixteen writes, ascending index. -/
def asmSecret (ws : Vector Word 16) : List HostEvent :=
  (List.finRange 16).flatMap fun k => asmWr (.s k) ws[k]

/-- The words of `testsecret` (rule R62): `0x03020100 + 0x04040404 * i`. -/
def testSecretWords : Vector Word 16 :=
  Vector.ofFn fun k : Fin 16 => 0x03020100#32 + BitVec.ofNat 32 (0x04040404 * k.val)

/-- `testsecret` (rule R62). -/
def asmTestSecret : List HostEvent := asmSecret testSecretWords

/-- The registers the bytes of a message fill, missing high bytes of the last word zero (rule R62). -/
def messageWrites : Nat → List Byte → List HostEvent
  | j, b0 :: b1 :: b2 :: b3 :: bs =>
    asmWr (.msg (Fin.ofNat 16 j)) (wordOfBytes Config.byteView b0 b1 b2 b3) ++ messageWrites (j + 1) bs
  | _, [] => []
  | j, [b0] => asmWr (.msg (Fin.ofNat 16 j)) (wordOfBytes Config.byteView b0 0#8 0#8 0#8)
  | j, [b0, b1] => asmWr (.msg (Fin.ofNat 16 j)) (wordOfBytes Config.byteView b0 b1 0#8 0#8)
  | j, [b0, b1, b2] => asmWr (.msg (Fin.ofNat 16 j)) (wordOfBytes Config.byteView b0 b1 b2 0#8)

/-- `msg <b0>, ..., <bn-1>`, `n <= 64` (rule R62). -/
def asmMsg (bytes : List Byte) : List HostEvent :=
  messageWrites 0 bytes ++ asmWr .mlen (BitVec.ofNat 32 bytes.length)

/-- `clrerr` (rule R62). -/
def asmClrerr : List HostEvent := asmWr .status 1#32

/-- `derive.m <sa>, <da>, <sp>, <dp>` (rule R62). -/
def asmDeriveM (sa da sp dp : Word) : List HostEvent := asmTuple sa da sp dp ++ asmCmd .deriveM ++ asmRd .seq

/-- `derive.s <sa>, <da>, <sp>, <dp>` (rule R62). -/
def asmDeriveS (sa da sp dp : Word) : List HostEvent := asmTuple sa da sp dp ++ asmCmd .deriveS ++ asmRd .seq

end Sys2Proof.Machine
end

