-- ==== Sys2Proof/Safety.lean ====
section
/-! DEFINITION. What counts as a good state and a good run, and the read and write sets of the commands
(spec/10_state.md rule R26), in the terms the claims use. -/

namespace Sys2Proof.Machine

/-- A step or a run that neither faults nor is refused (rule R129). -/
def Completes (o : Host.Outcome State Fault Refusal) : Prop := ∃ t, o = .next t

/-- `k` steps of the machine as the host runs it, stopping at the first fault or refusal. -/
def run (k : Nat) (s : State) : Host.Outcome State Fault Refusal := Sys2Proof.core.run k s

/-- The event the port delivers next in `s` is `p` (rules R32 and R45). -/
def Asks (s : State) (p : PortEvent) : Prop := ∃ e rest, s.inputs = e :: rest ∧ resolve e = .ok p

/-- A run with no error report, by the model's own record: "the hardware flag is the host's convenience, not the
model's evidence of a clean run" (rule R118). -/
def Clean (s : State) : Prop := s.reports = []

/-- What `STATUS` may hold (rules R24 and R110): clear with no cause, or set with the cause of an error that was
reported. -/
def StatusInv (s : State) : Prop :=
  (s.regs.err = 0#1 ∧ s.regs.cause = 0#2) ∨ (s.regs.err = 1#1 ∧ ∃ e ∈ s.reports, s.regs.cause = e.code)

/-- What the host reads at the indices 0 to 47, in order (rules R11 and R37). -/
def registerFile (r : Regs) : List Word :=
  [0#32, BitVec.setWidth 32 (r.cause ++ r.err), r.saddr, r.daddr, BitVec.setWidth 32 r.sport,
   BitVec.setWidth 32 r.dport, r.tickLo, r.tickHi, BitVec.setWidth 32 r.mlen, r.seq, r.dLo, r.dHi]
    ++ r.h.toList ++ r.secret.toList ++ r.msg.toList

/-- `H[0..3]`. -/
def hRegs : List Reg := [.h 0, .h 1, .h 2, .h 3]

/-- `S[0..15]`. -/
def secretRegs : List Reg := (List.finRange 16).map .s

/-- `MSG[0..15]`. -/
def msgRegs : List Reg := (List.finRange 16).map .msg

/-- The four tuple registers. -/
def tupleRegs : List Reg := [.saddr, .daddr, .sport, .dport]

/-- The two tick registers. -/
def tickRegs : List Reg := [.tickLo, .tickHi]

/-- The registers a command reads (rule R26). -/
def readSet : Instr → List Reg
  | .nop => []
  | .packM => tupleRegs ++ [.s 15]
  | .packS => tupleRegs ++ [.s 15]
  | .compress => hRegs ++ secretRegs
  | .khash => [.mlen, .s 0, .s 1, .s 2, .s 3] ++ msgRegs
  | .scaleM => [.h 0] ++ tickRegs
  | .scaleS => [.dLo] ++ tickRegs
  | .deriveM => tupleRegs ++ secretRegs ++ tickRegs
  | .deriveS => tupleRegs ++ [.s 0, .s 1, .s 2, .s 3, .s 15] ++ tickRegs

/-- The registers a command writes (rule R26); `KHASH` writes either `D` or `STATUS`. -/
def writeSet : Instr → List Reg
  | .nop => []
  | .packM => hRegs
  | .packS => [.msg 0, .msg 1, .msg 2, .msg 3, .mlen]
  | .compress => hRegs
  | .khash => [.dLo, .dHi, .status]
  | .scaleM => [.seq]
  | .scaleS => [.seq]
  | .deriveM => hRegs ++ [.seq]
  | .deriveS => [.msg 0, .msg 1, .msg 2, .msg 3, .mlen, .dLo, .dHi, .seq]

end Sys2Proof.Machine
end

