-- ==== Sys2Proof/Certificates/Slice0/Obligations.lean ====
section
/-! DEFINITION. The statements for the provers. Each docstring names the rule of spec/ it formalises, or says that the
statement is derived or rests on a choice of the model's. -/

open Sys2Proof Sys2Proof.Machine

/-! ### Reset -/

/-- Rule R29: after reset every register of rule R11 holds zero. -/
def Obligations.ResetHoldsZeroEverywhere : Prop :=
  State.reset.regs.err = 0#1 ∧ State.reset.regs.cause = 0#2 ∧ State.reset.regs.saddr = 0#32 ∧
  State.reset.regs.daddr = 0#32 ∧ State.reset.regs.sport = 0#16 ∧ State.reset.regs.dport = 0#16 ∧
  State.reset.regs.tick = 0#64 ∧ State.reset.regs.mlen = 0#7 ∧ State.reset.regs.seq = 0#32 ∧
  State.reset.regs.dLo = 0#32 ∧ State.reset.regs.dHi = 0#32 ∧ (∀ k : Fin 4, State.reset.regs.h[k] = 0#32) ∧
  (∀ k : Fin 16, State.reset.regs.secret[k] = 0#32) ∧ (∀ k : Fin 16, State.reset.regs.msg[k] = 0#32)

/-- Rules R29 and R130, derived: the reset event puts every register to zero in one step, from any state. That the
model's own record and reads stay is the model's choice (log entry 12). -/
def Obligations.ResetEventZeroesEveryRegister : Prop :=
  ∀ (s : State) (rest : List HostEvent), s.inputs = .reset :: rest →
    ∃ t, step s = .next t ∧ registerFile t.regs = List.replicate 48 0#32 ∧ t.inputs = rest ∧
      t.reads = s.reads ∧ t.reports = s.reports

/-! ### Encoding and the run of a command -/

/-- Rules R57 and R63, derived: a word decodes to a command exactly when it is that command's word; no other word has a
meaning and no bit is dropped. -/
def Obligations.DecodeExactlyTheEncodedWord : Prop :=
  ∀ (w : Word) (i : Instr), decode w = .ok i ↔ w = encode i

/-- Rule R57, derived: the nine command words, and what the decoder reads from each. -/
def Obligations.NineCommandWords : Prop :=
  decode 0x00000000#32 = .ok .nop ∧ decode 0x00000001#32 = .ok .packM ∧ decode 0x00000011#32 = .ok .packS ∧
  decode 0x00000002#32 = .ok .compress ∧ decode 0x00000012#32 = .ok .khash ∧ decode 0x00000003#32 = .ok .scaleM ∧
  decode 0x00000013#32 = .ok .scaleS ∧ decode 0x00000004#32 = .ok .deriveM ∧ decode 0x00000014#32 = .ok .deriveS

/-- Rule R58, derived: the words that encode no command are those with a reserved bit set, those with `OP` from 5 to 15,
and `0x00000010`. -/
def Obligations.IllegalWordsByClass : Prop :=
  ∀ w : Word, (∀ i, decode w ≠ .ok i) ↔
    (w.extractLsb' 5 27 ≠ 0#27 ∨ 5 ≤ (w.extractLsb' 0 4).toNat ∨ w = 0x00000010#32)

/-- Rules R23 and R45, derived: a step at a write of a command word to `CMD` is the command run on the state from which
the event has been taken. -/
def Obligations.StepRunsTheDecodedCommand : Prop :=
  ∀ (s : State) (rest : List HostEvent) (w : Word) (i : Instr),
    s.inputs = .regWrite 0#6 w :: rest → decode w = .ok i → i.wf = true →
    step s = exec i { s with inputs := rest }

/-- Rules R14 and R43, derived (log entry 1): the table's word, read by the decoder and delivered as the next event, is
the command, and the next step runs it. -/
def Obligations.DeliveredTableWordRuns : Prop :=
  ∀ (s : State) (i : Instr), decodeTableWord 32 (encode i).toNat = some i ∧
    step (s.withFetchWord 32 (encode i).toNat) = exec i s

/-- Rules R113 and R115, derived: a write to `CMD` of a word that is not one of the nine reports `IllegalCommand`,
cause 2; no register other than `STATUS` changes. That `reports` takes the entry, a dropped one too, is the model's
choice (log entry 4). -/
def Obligations.IllegalWordReportsIllegalCommand : Prop :=
  ∀ (s : State) (rest : List HostEvent) (w : Word), s.inputs = .regWrite 0#6 w :: rest →
    w ∉ [0x00000000#32, 0x00000001#32, 0x00000011#32, 0x00000002#32, 0x00000012#32, 0x00000003#32, 0x00000013#32,
      0x00000004#32, 0x00000014#32] →
    step s = .next { s with
      regs := if s.regs.err = 0#1 then { s.regs with err := 1#1, cause := 2#2 } else s.regs
      inputs := rest
      reports := .illegalCommand w :: s.reports }

/-! ### NOP and the packers -/

/-- Rule R109: `NOP` reads and writes nothing; its word is zero, and `0x00000010` is no `NOP`. -/
def Obligations.NopLeavesEveryRegister : Prop :=
  (∀ s : State, exec .nop s = .next s) ∧ encode .nop = 0x00000000#32 ∧ ∀ i, decode 0x00000010#32 ≠ .ok i

/-- Rule R87: `PACK.M` on every state, with the sum and the exclusive fields of the third slot, and its idempotence. -/
def Obligations.PackMPlacesRawWords : Prop :=
  ∀ s : State,
    exec .packM s = .next { s with
      regs := { s.regs with h := #v[s.regs.saddr, s.regs.daddr, s.regs.sport ++ s.regs.dport, s.regs.secret[15]] } } ∧
    (s.regs.sport ++ s.regs.dport : Word) = (s.regs.sport.setWidth 32 <<< 16) + s.regs.dport.setWidth 32 ∧
    (s.regs.sport ++ s.regs.dport : Word) = (s.regs.sport.setWidth 32 <<< 16) ||| s.regs.dport.setWidth 32 ∧
    (∀ t, exec .packM s = .next t → exec .packM t = .next t) ∧ encode .packM = 0x00000001#32

/-- Rule R88: `PACK.S` on every state, in whole registers and byte by byte, and its idempotence. -/
def Obligations.PackSSwapsIntoMessageWords : Prop :=
  ∀ s : State,
    (∃ t, exec .packS s = .next t ∧ t = { s with
      regs := { s.regs with
        msg := (((s.regs.msg.set 0 (bswap32 s.regs.saddr)).set 1 (bswap32 s.regs.daddr)).set 2
          (s.regs.dport.extractLsb' 0 8 ++ s.regs.dport.extractLsb' 8 8 ++ s.regs.sport.extractLsb' 0 8
            ++ s.regs.sport.extractLsb' 8 8)).set 3 (bswap32 s.regs.secret[15])
        mlen := 16#7 } } ∧
      t.regs.messageBytes.take 16 = wordBytes .big s.regs.saddr ++ wordBytes .big s.regs.daddr ++
        halfBytes .big s.regs.sport ++ halfBytes .big s.regs.dport ++ wordBytes .big s.regs.secret[15] ∧
      exec .packS t = .next t) ∧
    (s.regs.dport.extractLsb' 0 8 ++ s.regs.dport.extractLsb' 8 8 ++ s.regs.sport.extractLsb' 0 8
      ++ s.regs.sport.extractLsb' 8 8 : Word) = bswap32 (s.regs.sport ++ s.regs.dport) ∧
    encode .packS = 0x00000011#32

/-- Rules R88 and R90, derived: the message bytes after `PACK.S`, byte by byte as the layout's table has them; the bytes
from 16 on are kept. -/
def Obligations.PackSByteLayout : Prop :=
  ∀ s t : State, exec .packS s = .next t →
    t.regs.messageBytes =
      [s.regs.saddr.extractLsb' 24 8, s.regs.saddr.extractLsb' 16 8, s.regs.saddr.extractLsb' 8 8,
       s.regs.saddr.extractLsb' 0 8, s.regs.daddr.extractLsb' 24 8, s.regs.daddr.extractLsb' 16 8,
       s.regs.daddr.extractLsb' 8 8, s.regs.daddr.extractLsb' 0 8, s.regs.sport.extractLsb' 8 8,
       s.regs.sport.extractLsb' 0 8, s.regs.dport.extractLsb' 8 8, s.regs.dport.extractLsb' 0 8,
       s.regs.secret[15].extractLsb' 24 8, s.regs.secret[15].extractLsb' 16 8, s.regs.secret[15].extractLsb' 8 8,
       s.regs.secret[15].extractLsb' 0 8] ++ s.regs.messageBytes.drop 16

/-- Rule R91: both layouts are injective in the tuple. -/
def Obligations.PackersAreInjectiveInTheTuple : Prop :=
  ∀ s s' t t' : State,
    (exec .packM s = .next t ∧ exec .packM s' = .next t' ∧ t.regs.h = t'.regs.h ∨
     exec .packS s = .next t ∧ exec .packS s' = .next t' ∧
       t.regs.messageBytes.take 16 = t'.regs.messageBytes.take 16) →
    s.regs.saddr = s'.regs.saddr ∧ s.regs.daddr = s'.regs.daddr ∧ s.regs.sport = s'.regs.sport ∧
      s.regs.dport = s'.regs.dport

/-! ### The compression primitive -/

/-- Rules R66 and R67, derived: `COMPRESS` on every state, the working words after step 63 added to `H`. -/
def Obligations.CompressAddsTheWorkingWords : Prop :=
  ∀ s : State,
    let w := compressSteps s.regs.secret ⟨s.regs.h[0], s.regs.h[1], s.regs.h[2], s.regs.h[3]⟩ 64
    exec .compress s = .next { s with
      regs := { s.regs with
        h := #v[s.regs.h[0] + w.a, s.regs.h[1] + w.b, s.regs.h[2] + w.c, s.regs.h[3] + w.d] } }

/-- Rule R65, derived: before step 0 the working words are the ones given; step `i` of the 64, its function, additive
constant, block word and rotation written out from the rule's tables. -/
def Obligations.CompressStepByRound : Prop :=
  ∀ (x : Vector Word 16) (w : Work), compressSteps x w 0 = w ∧ ∀ i : Nat, i < 64 →
    let v := compressSteps x w i
    let f := match i / 16 with
      | 0 => (v.b &&& v.c) ||| (~~~v.b &&& v.d)
      | 1 => (v.d &&& v.b) ||| (~~~v.d &&& v.c)
      | 2 => v.b ^^^ v.c ^^^ v.d
      | _ => v.c ^^^ (v.b ||| ~~~v.d)
    let g := match i / 16 with
      | 0 => i
      | 1 => (5 * i + 1) % 16
      | 2 => (3 * i + 5) % 16
      | _ => (7 * i) % 16
    let r := [7, 12, 17, 22, 5, 9, 14, 20, 4, 11, 16, 23, 6, 10, 15, 21].getD (4 * (i / 16) + i % 4) 0
    let k0 : List Word := [
      0xd76aa478#32, 0xe8c7b756#32, 0x242070db#32, 0xc1bdceee#32,
      0xf57c0faf#32, 0x4787c62a#32, 0xa8304613#32, 0xfd469501#32,
      0x698098d8#32, 0x8b44f7af#32, 0xffff5bb1#32, 0x895cd7be#32,
      0x6b901122#32, 0xfd987193#32, 0xa679438e#32, 0x49b40821#32]
    let k1 : List Word := [
      0xf61e2562#32, 0xc040b340#32, 0x265e5a51#32, 0xe9b6c7aa#32,
      0xd62f105d#32, 0x02441453#32, 0xd8a1e681#32, 0xe7d3fbc8#32,
      0x21e1cde6#32, 0xc33707d6#32, 0xf4d50d87#32, 0x455a14ed#32,
      0xa9e3e905#32, 0xfcefa3f8#32, 0x676f02d9#32, 0x8d2a4c8a#32]
    let k2 : List Word := [
      0xfffa3942#32, 0x8771f681#32, 0x6d9d6122#32, 0xfde5380c#32,
      0xa4beea44#32, 0x4bdecfa9#32, 0xf6bb4b60#32, 0xbebfbc70#32,
      0x289b7ec6#32, 0xeaa127fa#32, 0xd4ef3085#32, 0x04881d05#32,
      0xd9d4d039#32, 0xe6db99e5#32, 0x1fa27cf8#32, 0xc4ac5665#32]
    let k3 : List Word := [
      0xf4292244#32, 0x432aff97#32, 0xab9423a7#32, 0xfc93a039#32,
      0x655b59c3#32, 0x8f0ccc92#32, 0xffeff47d#32, 0x85845dd1#32,
      0x6fa87e4f#32, 0xfe2ce6e0#32, 0xa3014314#32, 0x4e0811a1#32,
      0xf7537e82#32, 0xbd3af235#32, 0x2ad7d2bb#32, 0xeb86d391#32]
    let t := v.a + f + (k0 ++ k1 ++ k2 ++ k3).getD i 0#32 + x.toList.getD g 0#32
    compressSteps x w (i + 1) =
      { a := v.d, d := v.c, c := v.b, b := v.b + ((t <<< r) ||| (t >>> (32 - r))) }

/-- Rule R66, derived: for a known block the steps are an invertible permutation of the working words. -/
def Obligations.CompressStepsArePermutations : Prop :=
  ∀ (x : Vector Word 16) (n : Nat), Function.Bijective (fun w => compressSteps x w n)

/-! ### The keyed hash -/

/-- Rule R75, derived: `SipRound` is a permutation of the state. -/
def Obligations.SipRoundIsAPermutation : Prop := Function.Bijective sipRound

/-- Rule R75: the fourteen operations of `SipRound` in order, each on the values the ones before it left (a name with a
number is the value of that state word after that many of its own operations), and the rule's check values. -/
def Obligations.SipRoundByItsFourteenOperations : Prop :=
  (∀ a b c d : DWord,
    let a1 := a + b
    let b1 := b.rotateLeft 13
    let b2 := b1 ^^^ a1
    let a2 := a1.rotateLeft 32
    let c1 := c + d
    let d1 := d.rotateLeft 16
    let d2 := d1 ^^^ c1
    let a3 := a2 + d2
    let d3 := d2.rotateLeft 21
    let d4 := d3 ^^^ a3
    let c2 := c1 + b2
    let b3 := b2.rotateLeft 17
    let b4 := b3 ^^^ c2
    let c3 := c2.rotateLeft 32
    sipRound { v0 := a, v1 := b, v2 := c, v3 := d } = { v0 := a3, v1 := b4, v2 := c3, v3 := d4 }) ∧
  sipRound { v0 := 1#64, v1 := 0#64, v2 := 0#64, v3 := 0#64 } =
    { v0 := 0x0000000100000000#64, v1 := 0x0000000000020001#64, v2 := 0x0000000100000000#64,
      v3 := 0x0000000100000000#64 } ∧
  sipRound { v0 := 0#64, v1 := 0#64, v2 := 0#64, v3 := 0#64 } = { v0 := 0#64, v1 := 0#64, v2 := 0#64, v3 := 0#64 }

/-- Rules R74, R76, R78 and R79, derived: the keyed hash from its rounds on, written out: the four constants, the
exclusive-or of each word into `v3` before the rounds and into `v0` after them, the finalisation and the fold; 2 rounds
for each word and 4 at the end (rule R6). -/
def Obligations.SipHashByItsStages : Prop :=
  (∀ (c d : Nat) (k0 k1 : DWord) (blocks : List DWord),
    let start : SipState := {
      v0 := k0 ^^^ 0x736f6d6570736575#64
      v1 := k1 ^^^ 0x646f72616e646f6d#64
      v2 := k0 ^^^ 0x6c7967656e657261#64
      v3 := k1 ^^^ 0x7465646279746573#64 }
    let absorbed := blocks.foldl (fun v m =>
      let u := Nat.iterate sipRound c { v with v3 := v.v3 ^^^ m }
      { u with v0 := u.v0 ^^^ m }) start
    let last := Nat.iterate sipRound d { absorbed with v2 := absorbed.v2 ^^^ 0x00000000000000ff#64 }
    sipHash c d k0 k1 blocks = last.v0 ^^^ last.v1 ^^^ last.v2 ^^^ last.v3) ∧
  Config.cRounds = 2 ∧ Config.dRounds = 4

/-- Rule R73: the key is the first 16 secret bytes, read as two 64-bit words, which are `S[1] || S[0]` and
`S[3] || S[2]`. -/
def Obligations.KeyIsTheLeadingSecretBytes : Prop :=
  ∀ r : Regs, le64 (r.key.take 8) = (r.secret[1] ++ r.secret[0] : BitVec (32 + 32)) ∧
    le64 (r.key.drop 8) = (r.secret[3] ++ r.secret[2] : BitVec (32 + 32)) ∧ r.key = r.secretBytes.take 16

/-- Rules R76, R78, R80 and R81, derived: `KHASH` with a legal length, in closed form over the registers: the whole words
are `MSG[2j+1] || MSG[2j]`, the final block holds the length and the low `n mod 8` bytes of the next pair. -/
def Obligations.KhashHashesTheMessageRegisters : Prop :=
  ∀ s : State, s.regs.mlen.toNat ≤ 64 →
    let n := s.regs.mlen.toNat
    let word := fun j => s.regs.msg.toList.getD j 0#32
    let pair : Nat → DWord := fun j => (word (2 * j + 1) ++ word (2 * j) : BitVec (32 + 32))
    let final : DWord := (BitVec.ofNat 64 n <<< 56) ||| (pair (n / 8) &&& BitVec.ofNat 64 (2 ^ (8 * (n % 8)) - 1))
    let d := sipHash 2 4 (s.regs.secret[1] ++ s.regs.secret[0] : BitVec (32 + 32))
      (s.regs.secret[3] ++ s.regs.secret[2] : BitVec (32 + 32)) ((List.range (n / 8)).map pair ++ [final])
    exec .khash s = .next { s with
      regs := { s.regs with dLo := d.extractLsb' 0 32, dHi := d.extractLsb' 32 32 } }

/-- Rules R20, R113 and R114, derived: `InvalidLength` is raised by `KHASH` with `MLEN > 64`, with nothing else written;
by no other command, not by a legal `KHASH`, and not by the host's write to `MLEN`, which stores 7 bits. That `reports`
takes the entry, a dropped one too, is the model's choice (log entry 4). -/
def Obligations.InvalidLengthOnlyFromKhash : Prop :=
  (∀ s : State, 64 < s.regs.mlen.toNat → exec .khash s = .next { s with
    regs := if s.regs.err = 0#1 then { s.regs with err := 1#1, cause := 1#2 } else s.regs
    reports := .invalidLength s.regs.mlen :: s.reports }) ∧
  (∀ (s : State) (i : Instr), i ≠ .khash ∨ s.regs.mlen.toNat ≤ 64 → ∃ t, exec i s = .next t ∧
    t.reports = s.reports ∧ t.regs.err = s.regs.err ∧ t.regs.cause = s.regs.cause) ∧
  (∀ (s : State) (rest : List HostEvent) (w : Word), s.inputs = .regWrite 8#6 w :: rest → ∃ t, step s = .next t ∧
    t.reports = s.reports ∧ t.regs.mlen = w.extractLsb' 0 7 ∧ t.regs.err = s.regs.err ∧
    t.regs.cause = s.regs.cause)

/-- Rule R81, derived: two states that differ only in message bytes at positions `MLEN` and above give the same `D`. -/
def Obligations.KhashIgnoresBytesBeyondLength : Prop :=
  ∀ s s' t t' : State, s.regs.mlen = s'.regs.mlen → s.regs.mlen.toNat ≤ 64 →
    (∀ k : Fin 4, s.regs.secret[k.val] = s'.regs.secret[k.val]) →
    (∀ k, k < s.regs.mlen.toNat → s.regs.messageBytes.getD k 0#8 = s'.regs.messageBytes.getD k 0#8) →
    exec .khash s = .next t → exec .khash s' = .next t' →
    t.regs.dLo = t'.regs.dLo ∧ t.regs.dHi = t'.regs.dHi

/-! ### The combiner -/

/-- Rule R95: `SCALE.M` on every state. -/
def Obligations.ScaleMAddsTheShiftedTick : Prop :=
  ∀ s : State, encode .scaleM = 0x00000003#32 ∧ exec .scaleM s = .next { s with
    regs := { s.regs with
      seq := s.regs.h[0] + ((s.regs.tickHi ++ s.regs.tickLo : BitVec (32 + 32)) >>> 6).setWidth 32 } }

/-- Rule R96: `SCALE.S` on every state. -/
def Obligations.ScaleSAddsTheShiftedTick : Prop :=
  ∀ s : State, encode .scaleS = 0x00000013#32 ∧ exec .scaleS s = .next { s with
    regs := { s.regs with
      seq := s.regs.dLo + ((s.regs.tickHi ++ s.regs.tickLo : BitVec (32 + 32)) >>> 6).setWidth 32 } }

/-- Rule R98: only `tick[37:6]`, that is `TICK_HI[5:0] || TICK_LO[31:6]`, reaches the result. -/
def Obligations.OnlyTickBits37To6Count : Prop :=
  (∀ (base : Word) (t : DWord), scale base t = base + t.extractLsb' 6 32) ∧
  (∀ (base : Word) (t u : DWord), t.extractLsb' 6 32 = u.extractLsb' 6 32 → scale base t = scale base u) ∧
  (∀ r : Regs, r.tick.extractLsb' 6 32 = (r.tickHi.extractLsb' 0 6 ++ r.tickLo.extractLsb' 6 26 : BitVec (6 + 26)))

/-- Rule R99, with the carry the document's wording leaves out (conflict C1). -/
def Obligations.DriftLawWithCarry : Prop :=
  ∀ (base : Word) (t d : DWord), t.toNat + d.toNat < 2 ^ 64 →
    scale base (t + d) - scale base t = BitVec.ofNat 32 ((t.toNat + d.toNat) / 64 - t.toNat / 64) ∧
    (t.toNat + d.toNat) / 64 - t.toNat / 64 =
      d.toNat / 64 + (if 64 ≤ t.toNat % 64 + d.toNat % 64 then 1 else 0)

/-- Rule R100, derived: with `TICK = 0` the sequence number is the base itself, in both backends. -/
def Obligations.ZeroTickGivesTheBase : Prop :=
  ∀ s : State, s.regs.tickHi = 0#32 → s.regs.tickLo = 0#32 →
    (∃ t, exec .scaleM s = .next t ∧ t.regs.seq = s.regs.h[0]) ∧
    (∃ t, exec .scaleS s = .next t ∧ t.regs.seq = s.regs.dLo)

/-- Rule R101, derived: while the tick grows by at most 2^37 - 64 the sequence number advances by less than 2^31. -/
def Obligations.BoundedAdvanceLooksLater : Prop :=
  ∀ (base : Word) (t d : DWord), t.toNat + d.toNat < 2 ^ 64 → d.toNat ≤ 2 ^ 37 - 64 →
    (scale base (t + d) - scale base t).toNat < 2 ^ 31

/-! ### The derivations -/

/-- Rule R103, derived: `DERIVE.M` on every state, by its three phases. -/
def Obligations.DeriveMPacksCompressesScales : Prop :=
  ∀ s : State,
    let h' := compress #v[s.regs.saddr, s.regs.daddr, s.regs.sport ++ s.regs.dport, s.regs.secret[15]] s.regs.secret
    exec .deriveM s = .next { s with regs := { s.regs with h := h', seq := scale h'[0] s.regs.tick } }

/-- Rule R107: the result of both derivations in closed form. -/
def Obligations.DerivationsInClosedForm : Prop :=
  ∀ s : State,
    let tick : DWord := (s.regs.tickHi ++ s.regs.tickLo : BitVec (32 + 32))
    let ports : Word := s.regs.sport ++ s.regs.dport
    let w := compressSteps s.regs.secret ⟨s.regs.saddr, s.regs.daddr, ports, s.regs.secret[15]⟩ 64
    let d := sipHash 2 4 (s.regs.secret[1] ++ s.regs.secret[0] : BitVec (32 + 32))
      (s.regs.secret[3] ++ s.regs.secret[2] : BitVec (32 + 32))
      [(bswap32 s.regs.daddr ++ bswap32 s.regs.saddr : BitVec (32 + 32)),
       (bswap32 s.regs.secret[15] ++ bswap32 ports : BitVec (32 + 32)), 0x1000000000000000#64]
    exec .deriveM s = .next { s with
      regs := { s.regs with
        h := #v[s.regs.saddr + w.a, s.regs.daddr + w.b, ports + w.c, s.regs.secret[15] + w.d]
        seq := (s.regs.saddr + w.a) + tick.extractLsb' 6 32 } } ∧
    exec .deriveS s = .next { s with
      regs := { s.regs with
        msg := (((s.regs.msg.set 0 (bswap32 s.regs.saddr)).set 1 (bswap32 s.regs.daddr)).set 2
          (bswap32 ports)).set 3 (bswap32 s.regs.secret[15])
        mlen := 16#7
        dLo := d.extractLsb' 0 32
        dHi := d.extractLsb' 32 32
        seq := d.extractLsb' 0 32 + tick.extractLsb' 6 32 } }

/-- Rule R105: one fused command ends in the same state as the three commands issued in order with no other access
between them; every register, `STATUS` included. -/
def Obligations.FusedCommandsAreTheirPhases : Prop :=
  ∀ (s : State) (rest : List HostEvent),
    run 3 { s with inputs := asmCmd .packM ++ asmCmd .compress ++ asmCmd .scaleM ++ rest } =
      run 1 { s with inputs := asmCmd .deriveM ++ rest } ∧
    run 3 { s with inputs := asmCmd .packS ++ asmCmd .khash ++ asmCmd .scaleS ++ rest } =
      run 1 { s with inputs := asmCmd .deriveS ++ rest }

/-- Rule R106, derived: the derivations never report an error and never change `STATUS`. That a report would be an entry
of `reports` is the model's choice (log entry 4). -/
def Obligations.DerivationsNeverReport : Prop :=
  ∀ (s : State) (i : Instr), i = .deriveM ∨ i = .deriveS →
    ∃ t, exec i s = .next t ∧ t.regs.err = s.regs.err ∧ t.regs.cause = s.regs.cause ∧ t.reports = s.reports

/-- Rule R108: a derivation depends on nothing but the tuple, the secret, the tick and the backend. -/
def Obligations.DerivationDependsOnInputsOnly : Prop :=
  ∀ (s s' t t' : State) (i : Instr), i = .deriveM ∨ i = .deriveS →
    s.regs.saddr = s'.regs.saddr → s.regs.daddr = s'.regs.daddr → s.regs.sport = s'.regs.sport →
    s.regs.dport = s'.regs.dport → s.regs.secret = s'.regs.secret → s.regs.tickLo = s'.regs.tickLo →
    s.regs.tickHi = s'.regs.tickHi → exec i s = .next t → exec i s' = .next t' →
    t.regs.seq = t'.regs.seq ∧ (i = .deriveM → t.regs.h = t'.regs.h) ∧
      (i = .deriveS → t.regs.dLo = t'.regs.dLo ∧ t.regs.dHi = t'.regs.dHi)

/-! ### Read and write sets -/

/-- Rule R26, the column "writes", derived: a register that a command does not list is unchanged by it; nor does it touch
what the host has asked for or read. -/
def Obligations.UnlistedRegistersAreUnchanged : Prop :=
  ∀ (i : Instr) (s t : State), exec i s = .next t →
    (∀ reg, reg ∉ writeSet i → readReg reg t.regs = readReg reg s.regs) ∧ t.inputs = s.inputs ∧ t.reads = s.reads

/-- Rule R26, the column "reads", derived: what a command writes depends only on the registers it lists as read (for
`KHASH`, with a legal length). -/
def Obligations.ResultsDependOnListedRegisters : Prop :=
  ∀ (i : Instr) (s s' t t' : State), (∀ reg ∈ readSet i, readReg reg s.regs = readReg reg s'.regs) →
    (i = .khash → s.regs.mlen.toNat ≤ 64) → exec i s = .next t → exec i s' = .next t' →
    ∀ reg ∈ writeSet i, reg ≠ .status → readReg reg t.regs = readReg reg t'.regs

/-- Rule R31: a register keeps its value until a host write to it, a command that lists it under "writes" (or, for
`STATUS`, a word that encodes no command) or reset. -/
def Obligations.RegisterKeepsItsValue : Prop :=
  ∀ (s t : State) (reg : Reg), step s = .next t → readReg reg t.regs ≠ readReg reg s.regs →
    Asks s .reset ∨ (∃ w, Asks s (.write (indexOfReg reg) w)) ∨
    (∃ w i, Asks s (.write 0#6 w) ∧ decode w = .ok i ∧ reg ∈ writeSet i) ∨
    (∃ w, Asks s (.write 0#6 w) ∧ (∀ i, decode w ≠ .ok i) ∧ reg = .status)

/-- Rule R17, derived: no command writes any `S[i]`; only a host write or reset changes the secret; the host may read it
back. That the value returned is kept in `reads` is the model's choice (log entry 3). -/
def Obligations.SecretChangesOnlyByHostOrReset : Prop :=
  (∀ (i : Instr) (s t : State), exec i s = .next t → t.regs.secret = s.regs.secret) ∧
  (∀ s t : State, step s = .next t → t.regs.secret ≠ s.regs.secret →
    Asks s .reset ∨ ∃ (k : Fin 16) (w : Word), Asks s (.write (indexOfReg (.s k)) w) ∧
      t.regs.secret = s.regs.secret.set k w) ∧
  (∀ (s : State) (rest : List HostEvent) (k : Fin 16), s.inputs = .regRead (indexOfReg (.s k)) :: rest →
    step s = .next { s with inputs := rest, reads := s.regs.secret[k] :: s.reads })

/-- Rule R22, derived: only the four commands and reset write `SEQ`, a host write to it is ignored, and no command reads
it: neither what it writes elsewhere nor the new `SEQ` depends on the old one. That a report is an entry of `reports`
is the model's choice (log entry 4). -/
def Obligations.SeqIsAResultLatch : Prop :=
  (∀ s t : State, step s = .next t → t.regs.seq ≠ s.regs.seq →
    Asks s .reset ∨ ∃ w i, Asks s (.write 0#6 w) ∧ decode w = .ok i ∧ i ∈ [.scaleM, .scaleS, .deriveM, .deriveS]) ∧
  (∀ (s : State) (rest : List HostEvent) (w : Word), s.inputs = .regWrite 9#6 w :: rest →
    step s = .next { s with inputs := rest }) ∧
  (∀ (i : Instr) (s t t' : State) (v : Word), exec i s = .next t →
    exec i { s with regs := { s.regs with seq := v } } = .next t' →
    { t.regs with seq := v } = { t'.regs with seq := v } ∧ t.reports = t'.reports ∧
      (i ∈ [.scaleM, .scaleS, .deriveM, .deriveS] → t.regs.seq = t'.regs.seq) ∧
      (i ∉ [.scaleM, .scaleS, .deriveM, .deriveS] → t.regs.seq = s.regs.seq ∧ t'.regs.seq = v))

/-- Rule R40, derived: writing the same command word twice is the same as once for every command but `COMPRESS`, for
which it differs. -/
def Obligations.EveryCommandButCompressIsIdempotent : Prop :=
  (∀ (i : Instr) (s t u : State), i ≠ .compress → exec i s = .next t → exec i t = .next u → u.regs = t.regs) ∧
  (∃ s t u, exec .compress s = .next t ∧ exec .compress t = .next u ∧ u.regs ≠ t.regs)

/-! ### Error reports and STATUS -/

/-- Rule R113: the first error since `ERR` was last clear is recorded with its cause code, a later one is dropped, and
nothing else the host can see changes. -/
def Obligations.ReportRecordsTheFirstCause : Prop :=
  ∀ (e : Report) (s : State),
    let code : BitVec 2 := match e with
      | .invalidLength _ => 1#2
      | .illegalCommand _ => 2#2
    (s.regs.err = 0#1 → (raise e s).regs = { s.regs with err := 1#1, cause := code }) ∧
    (s.regs.err = 1#1 → (raise e s).regs = s.regs) ∧ (raise e s).inputs = s.inputs ∧ (raise e s).reads = s.reads

/-- Rule R110: writing 1 to bit 0 of `STATUS` clears `ERR` and `CAUSE` together; any other write changes nothing. -/
def Obligations.StatusClearsByWritingOne : Prop :=
  ∀ (s : State) (rest : List HostEvent) (w : Word), s.inputs = .regWrite 1#6 w :: rest →
    (w.getLsbD 0 = true →
      step s = .next { s with regs := { s.regs with err := 0#1, cause := 0#2 }, inputs := rest }) ∧
    (w.getLsbD 0 = false → step s = .next { s with inputs := rest })

/-- Rules R24 and R118, derived: `STATUS` blocks nothing: a command does the same to every other register whatever `STATUS`
holds. That a report is an entry of `reports` is the model's choice (log entry 4). -/
def Obligations.StatusBlocksNoCommand : Prop :=
  ∀ (i : Instr) (s : State) (e : BitVec 1) (c : BitVec 2), ∃ t t',
    exec i s = .next t ∧ exec i { s with regs := { s.regs with err := e, cause := c } } = .next t' ∧
    { t.regs with err := 0#1, cause := 0#2 } = { t'.regs with err := 0#1, cause := 0#2 } ∧ t.reports = t'.reports

/-- Derived from rules R24, R110 and R113, with the model's record (log entry 4): the invariant holds at reset. -/
def Obligations.StatusInvariantAtReset : Prop := StatusInv State.reset

/-- Derived from rules R24, R110 and R113, with the model's record (log entry 4): every step from every state keeps the
invariant: `STATUS` is clear with no cause, or set with the cause of an error that was reported. -/
def Obligations.StatusInvariantKeptByEveryStep : Prop :=
  ∀ s t : State, StatusInv s → step s = .next t → StatusInv t

/-- Rule R24, derived: under the invariant the host reads `0x0`, `0x3` or `0x5` from `STATUS`, and `0x0` where nothing
was ever reported. -/
def Obligations.StatusReadsOneOfThreeValues : Prop :=
  ∀ s : State, StatusInv s →
    (readReg .status s.regs = 0x0#32 ∨ readReg .status s.regs = 0x3#32 ∨ readReg .status s.regs = 0x5#32) ∧
    (Clean s → readReg .status s.regs = 0x0#32)

/-- Rule R117, derived: one access raises at most one error, `IllegalCommand` exactly from a word that is no command and
`InvalidLength` only from `KHASH`; while `ERR` is set only a clear or reset changes `STATUS`. -/
def Obligations.OneAccessRaisesAtMostOneError : Prop :=
  ∀ s t : State, step s = .next t →
    (t.reports = s.reports ∨
     (∃ w, Asks s (.write 0#6 w) ∧ (∀ i, decode w ≠ .ok i) ∧ t.reports = .illegalCommand w :: s.reports) ∨
     (Asks s (.write 0#6 (encode .khash)) ∧ 64 < s.regs.mlen.toNat ∧
       t.reports = .invalidLength s.regs.mlen :: s.reports)) ∧
    (s.regs.err = 1#1 → t.regs.err = 1#1 ∧ t.regs.cause = s.regs.cause ∨ Asks s .reset ∨
      ∃ w, Asks s (.write 1#6 w) ∧ w.getLsbD 0 = true)

/-! ### The access port -/

/-- Rule R37, derived: what `RegRead(i)` returns for each of the 64 indices; a read changes no register and reports nothing.
That the value is kept in `reads` is the model's choice (log entry 3). -/
def Obligations.RegReadReturnsTheRegister : Prop :=
  ∀ (s : State) (rest : List HostEvent) (i : BitVec 6), s.inputs = .regRead i :: rest →
    step s = .next { s with inputs := rest, reads := (registerFile s.regs).getD i.toNat 0#32 :: s.reads }

/-- Rule R38: what `RegWrite(i, w)` does for each of the 64 indices. -/
def Obligations.RegWriteStoresTheStoredBits : Prop :=
  ∀ (s : State) (rest : List HostEvent) (i : BitVec 6) (w : Word), s.inputs = .regWrite i w :: rest →
    if i = 0#6 then step s = execute w { s with inputs := rest }
    else ∃ r, step s = .next { s with regs := r, inputs := rest } ∧
      registerFile r =
        if i = 1#6 then (if w.getLsbD 0 then (registerFile s.regs).set 1 0#32 else registerFile s.regs)
        else if i = 9#6 ∨ 48 ≤ i.toNat then registerFile s.regs
        else if i = 4#6 ∨ i = 5#6 then (registerFile s.regs).set i.toNat (w &&& 0xFFFF#32)
        else if i = 8#6 then (registerFile s.regs).set i.toNat (w &&& 0x7F#32)
        else (registerFile s.regs).set i.toNat w

/-- Rules R33 and R45, derived: a read returns the latest earlier write to a read-write register, cut to its stored
width. That the value returned is kept in `reads` is the model's choice (log entry 3). -/
def Obligations.ReadReturnsTheLatestWrite : Prop :=
  ∀ (s : State) (rest : List HostEvent) (reg : Reg) (w : Word), hostAccess reg = .readWrite →
    ∃ t, run 2 { s with inputs := asmWr reg w ++ asmRd reg ++ rest } = .next t ∧
      t.reads = BitVec.ofNat 32 (w.toNat % 2 ^ storedBits reg) :: s.reads ∧ t.inputs = rest

/-- Rule R41: byte `4j+i` of the secret, of the message and of the digest is bits `8i+7` to `8i` of word `j`. -/
def Obligations.BuffersAreLittleEndian : Prop :=
  ∀ (r : Regs) (i : Fin 4),
    (∀ j : Fin 16, r.secretBytes[4 * j.val + i.val]? = some (r.secret[j].extractLsb' (8 * i.val) 8)) ∧
    (∀ j : Fin 16, r.messageBytes[4 * j.val + i.val]? = some (r.msg[j].extractLsb' (8 * i.val) 8)) ∧
    r.digestBytes[i.val]? = some (r.dLo.extractLsb' (8 * i.val) 8) ∧
    r.digestBytes[4 + i.val]? = some (r.dHi.extractLsb' (8 * i.val) 8)

/-- Rules R36 and R39, derived: an aligned 4-byte access is the register access of its index, and any other access of the
byte-addressed view is refused (log entry 7). -/
def Obligations.OnlyAlignedWordAccessesAreDefined : Prop :=
  ∀ (s : State) (rest : List HostEvent) (offset : BitVec 8) (n : Nat) (w : Word),
    (n = 4 ∧ offset.toNat % 4 = 0 →
      step { s with inputs := .memRead offset n :: rest } =
        step { s with inputs := .regRead (BitVec.ofNat 6 (offset.toNat / 4)) :: rest } ∧
      step { s with inputs := .memWrite offset n w :: rest } =
        step { s with inputs := .regWrite (BitVec.ofNat 6 (offset.toNat / 4)) w :: rest }) ∧
    (¬(n = 4 ∧ offset.toNat % 4 = 0) →
      (∃ r, step { s with inputs := .memRead offset n :: rest } = .refused r) ∧
      (∃ r, step { s with inputs := .memWrite offset n w :: rest } = .refused r))

/-- Rule R129, derived: a step completes exactly when the event asked for is one the spec defines; with none the block is
idle (log entry 2), and nothing faults. -/
def Obligations.EveryDefinedAccessCompletes : Prop :=
  ∀ s : State, (Completes (step s) ↔ ∀ e ∈ s.inputs.head?, e.wf = true) ∧ (s.inputs = [] → step s = .next s) ∧
    ∀ f, step s ≠ .fault f

/-- Rule R144, derived: every finite list of accesses the spec defines ends, with all of them performed. -/
def Obligations.EveryFiniteProgramEnds : Prop :=
  ∀ s : State, (∀ e ∈ s.inputs, e.wf = true) → ∃ t, run s.inputs.length s = .next t ∧ t.inputs = []

/-- Rules R45 and R129, derived: from every state whose events are all ones the spec defines and at least one is left, the
step completes, has taken exactly the first event, and leaves such a list. That the events stand in `inputs` is the
model's choice (log entry 1). -/
def Obligations.EveryStepTakesOneEvent : Prop :=
  ∀ s : State, s.inputs ≠ [] → (∀ e ∈ s.inputs, e.wf = true) →
    ∃ t, step s = .next t ∧ t.inputs = s.inputs.tail ∧ ∀ e ∈ t.inputs, e.wf = true
end

