-- ==== Sys2Proof/Laws/Bytes.lean ====
section
/-! SUPPORT. The byte and bit operations of the notation, once. -/

namespace Sys2Proof.Machine

/-- The bytes of `b3 || b2 || b1 || b0`, the least significant first. -/
theorem wordBytes_little_append (b3 b2 b1 b0 : Byte) :
    wordBytes .little (b3 ++ b2 ++ b1 ++ b0 : BitVec (8 + 8 + 8 + 8)) = [b0, b1, b2, b3] := by
  simp only [wordBytes]
  refine List.cons_eq_cons.2 ⟨?_, List.cons_eq_cons.2 ⟨?_, List.cons_eq_cons.2 ⟨?_, List.cons_eq_cons.2 ⟨?_, rfl⟩⟩⟩⟩ <;>
  · apply BitVec.eq_of_getLsbD_eq
    intro i hi
    simp only [BitVec.getLsbD_append, BitVec.getLsbD_extractLsb']
    interval_cases i <;> simp

/-- Reading the bytes of a word made of four bytes, in the same order, gives them back. -/
@[simp] theorem wordBytes_wordOfBytes (v : ByteOrder) (b0 b1 b2 b3 : Byte) :
    wordBytes v (wordOfBytes v b0 b1 b2 b3) = [b0, b1, b2, b3] := by
  cases v with
  | little => exact wordBytes_little_append b3 b2 b1 b0
  | big =>
    have h := wordBytes_little_append b0 b1 b2 b3
    simp only [wordBytes, wordOfBytes] at h ⊢
    simp_all

/-- A word is `LE32` of its own bytes. -/
@[simp] theorem wordOfBytes_little_bytes (w : Word) :
    wordOfBytes .little (w.extractLsb' 0 8) (w.extractLsb' 8 8) (w.extractLsb' 16 8) (w.extractLsb' 24 8) = w := by
  simp only [wordOfBytes]
  apply BitVec.eq_of_getLsbD_eq
  intro i hi
  simp only [BitVec.getLsbD_append, BitVec.getLsbD_extractLsb']
  interval_cases i <;> simp

/-- `bswap32` reads the bytes of a word in the opposite order. -/
theorem wordOfBytes_big_bytes (w : Word) :
    wordOfBytes .big (w.extractLsb' 0 8) (w.extractLsb' 8 8) (w.extractLsb' 16 8) (w.extractLsb' 24 8) = bswap32 w := rfl

/-- The high half of a concatenation. -/
theorem extractLsb'_append_high {m n : Nat} (a : BitVec m) (b : BitVec n) : (a ++ b).extractLsb' n m = a := by
  apply BitVec.eq_of_getLsbD_eq
  intro i hi
  simp [BitVec.getLsbD_append, hi]

/-- The low half of a concatenation. -/
theorem extractLsb'_append_low {m n : Nat} (a : BitVec m) (b : BitVec n) : (a ++ b).extractLsb' 0 n = b := by
  apply BitVec.eq_of_getLsbD_eq
  intro i hi
  simp [BitVec.getLsbD_append, hi]

/-- Bit `i` of `LE64` of bytes is bit `i mod 8` of byte `i div 8`. -/
theorem getLsbD_le64 (bs : List Byte) {i : Nat} (hi : i < 64) :
    (le64 bs).getLsbD i = (bs.getD (i / 8) 0#8).getLsbD (i % 8) := by
  induction bs generalizing i with
  | nil => simp [le64]
  | cons b bs ih =>
    rw [le64, BitVec.getLsbD_or, BitVec.getLsbD_shiftLeft, BitVec.getLsbD_setWidth]
    by_cases h8 : i < 8
    · simp [h8, hi, Nat.div_eq_of_lt h8, Nat.mod_eq_of_lt h8]
    · obtain ⟨j, rfl⟩ : ∃ j, i = j + 8 := ⟨i - 8, by omega⟩
      simp [hi, ih (i := j) (by omega)]

/-- `LE64` of the first `k` bytes keeps the low `8k` bits. -/
theorem le64_take (bs : List Byte) (k : Nat) :
    le64 (bs.take k) = le64 bs &&& BitVec.ofNat 64 (2 ^ (8 * k) - 1) := by
  apply BitVec.eq_of_getLsbD_eq
  intro i hi
  rw [BitVec.getLsbD_and, getLsbD_le64 _ hi, getLsbD_le64 _ hi, BitVec.getLsbD_ofNat, Nat.testBit_two_pow_sub_one]
  by_cases h : i / 8 < k
  · simp [List.getD_eq_getElem?_getD, h, hi, show i < 8 * k by omega]
  · simp [List.getD_eq_getElem?_getD, h, show ¬ i < 8 * k by omega]

/-- `LE64` of the bytes of two registers is the second above the first. -/
theorem le64_two_words (a b : Word) :
    le64 (wordBytes .little a ++ wordBytes .little b) = (b ++ a : BitVec (32 + 32)) := by
  simp only [wordBytes, List.cons_append, List.nil_append, le64]
  apply BitVec.eq_of_getLsbD_eq
  intro i hi
  simp only [BitVec.getLsbD_append, BitVec.getLsbD_extractLsb', BitVec.getLsbD_or, BitVec.getLsbD_shiftLeft,
    BitVec.getLsbD_setWidth]
  interval_cases i <;> simp

/-- The four registers of a group, one by one. -/
theorem toList_four (m : Vector Word 4) : m.toList = [m[0], m[1], m[2], m[3]] := by
  apply List.ext_getElem
  · simp
  · intro i h1 h2
    simp only [Vector.length_toList] at h1
    interval_cases i <;> simp

/-- The sixteen registers of a group, one by one. -/
theorem toList_sixteen (m : Vector Word 16) :
    m.toList = [m[0], m[1], m[2], m[3], m[4], m[5], m[6], m[7], m[8], m[9], m[10], m[11], m[12], m[13], m[14],
      m[15]] := by
  apply List.ext_getElem
  · simp
  · intro i h1 h2
    simp only [Vector.length_toList] at h1
    interval_cases i <;> simp

end Sys2Proof.Machine
end

