-- ==== Sys2Proof/Laws/State.lean ====
section
/-! SUPPORT. One lemma per field per update of the state, each true by rfl: no proof unfolds a record update.
The proofs are written `(rfl)`, in parentheses, so that simp rewrites with these lemmas as equations: a defeq step
would have the kernel compare a command's whole result with the state it ran on. -/

namespace Sys2Proof.Machine

section
variable (r : Regs)

@[simp] theorem Regs.setStatus_err (e : BitVec 1) (c : BitVec 2) : (r.setStatus e c).err = e := (rfl)
@[simp] theorem Regs.setStatus_cause (e : BitVec 1) (c : BitVec 2) : (r.setStatus e c).cause = c := (rfl)
@[simp] theorem Regs.setStatus_saddr (e : BitVec 1) (c : BitVec 2) : (r.setStatus e c).saddr = r.saddr := (rfl)
@[simp] theorem Regs.setStatus_daddr (e : BitVec 1) (c : BitVec 2) : (r.setStatus e c).daddr = r.daddr := (rfl)
@[simp] theorem Regs.setStatus_sport (e : BitVec 1) (c : BitVec 2) : (r.setStatus e c).sport = r.sport := (rfl)
@[simp] theorem Regs.setStatus_dport (e : BitVec 1) (c : BitVec 2) : (r.setStatus e c).dport = r.dport := (rfl)
@[simp] theorem Regs.setStatus_tickLo (e : BitVec 1) (c : BitVec 2) : (r.setStatus e c).tickLo = r.tickLo := (rfl)
@[simp] theorem Regs.setStatus_tickHi (e : BitVec 1) (c : BitVec 2) : (r.setStatus e c).tickHi = r.tickHi := (rfl)
@[simp] theorem Regs.setStatus_mlen (e : BitVec 1) (c : BitVec 2) : (r.setStatus e c).mlen = r.mlen := (rfl)
@[simp] theorem Regs.setStatus_seq (e : BitVec 1) (c : BitVec 2) : (r.setStatus e c).seq = r.seq := (rfl)
@[simp] theorem Regs.setStatus_dLo (e : BitVec 1) (c : BitVec 2) : (r.setStatus e c).dLo = r.dLo := (rfl)
@[simp] theorem Regs.setStatus_dHi (e : BitVec 1) (c : BitVec 2) : (r.setStatus e c).dHi = r.dHi := (rfl)
@[simp] theorem Regs.setStatus_h (e : BitVec 1) (c : BitVec 2) : (r.setStatus e c).h = r.h := (rfl)
@[simp] theorem Regs.setStatus_secret (e : BitVec 1) (c : BitVec 2) : (r.setStatus e c).secret = r.secret := (rfl)
@[simp] theorem Regs.setStatus_msg (e : BitVec 1) (c : BitVec 2) : (r.setStatus e c).msg = r.msg := (rfl)

@[simp] theorem Regs.setSaddr_err (v : Word) : (r.setSaddr v).err = r.err := (rfl)
@[simp] theorem Regs.setSaddr_cause (v : Word) : (r.setSaddr v).cause = r.cause := (rfl)
@[simp] theorem Regs.setSaddr_saddr (v : Word) : (r.setSaddr v).saddr = v := (rfl)
@[simp] theorem Regs.setSaddr_daddr (v : Word) : (r.setSaddr v).daddr = r.daddr := (rfl)
@[simp] theorem Regs.setSaddr_sport (v : Word) : (r.setSaddr v).sport = r.sport := (rfl)
@[simp] theorem Regs.setSaddr_dport (v : Word) : (r.setSaddr v).dport = r.dport := (rfl)
@[simp] theorem Regs.setSaddr_tickLo (v : Word) : (r.setSaddr v).tickLo = r.tickLo := (rfl)
@[simp] theorem Regs.setSaddr_tickHi (v : Word) : (r.setSaddr v).tickHi = r.tickHi := (rfl)
@[simp] theorem Regs.setSaddr_mlen (v : Word) : (r.setSaddr v).mlen = r.mlen := (rfl)
@[simp] theorem Regs.setSaddr_seq (v : Word) : (r.setSaddr v).seq = r.seq := (rfl)
@[simp] theorem Regs.setSaddr_dLo (v : Word) : (r.setSaddr v).dLo = r.dLo := (rfl)
@[simp] theorem Regs.setSaddr_dHi (v : Word) : (r.setSaddr v).dHi = r.dHi := (rfl)
@[simp] theorem Regs.setSaddr_h (v : Word) : (r.setSaddr v).h = r.h := (rfl)
@[simp] theorem Regs.setSaddr_secret (v : Word) : (r.setSaddr v).secret = r.secret := (rfl)
@[simp] theorem Regs.setSaddr_msg (v : Word) : (r.setSaddr v).msg = r.msg := (rfl)

@[simp] theorem Regs.setDaddr_err (v : Word) : (r.setDaddr v).err = r.err := (rfl)
@[simp] theorem Regs.setDaddr_cause (v : Word) : (r.setDaddr v).cause = r.cause := (rfl)
@[simp] theorem Regs.setDaddr_saddr (v : Word) : (r.setDaddr v).saddr = r.saddr := (rfl)
@[simp] theorem Regs.setDaddr_daddr (v : Word) : (r.setDaddr v).daddr = v := (rfl)
@[simp] theorem Regs.setDaddr_sport (v : Word) : (r.setDaddr v).sport = r.sport := (rfl)
@[simp] theorem Regs.setDaddr_dport (v : Word) : (r.setDaddr v).dport = r.dport := (rfl)
@[simp] theorem Regs.setDaddr_tickLo (v : Word) : (r.setDaddr v).tickLo = r.tickLo := (rfl)
@[simp] theorem Regs.setDaddr_tickHi (v : Word) : (r.setDaddr v).tickHi = r.tickHi := (rfl)
@[simp] theorem Regs.setDaddr_mlen (v : Word) : (r.setDaddr v).mlen = r.mlen := (rfl)
@[simp] theorem Regs.setDaddr_seq (v : Word) : (r.setDaddr v).seq = r.seq := (rfl)
@[simp] theorem Regs.setDaddr_dLo (v : Word) : (r.setDaddr v).dLo = r.dLo := (rfl)
@[simp] theorem Regs.setDaddr_dHi (v : Word) : (r.setDaddr v).dHi = r.dHi := (rfl)
@[simp] theorem Regs.setDaddr_h (v : Word) : (r.setDaddr v).h = r.h := (rfl)
@[simp] theorem Regs.setDaddr_secret (v : Word) : (r.setDaddr v).secret = r.secret := (rfl)
@[simp] theorem Regs.setDaddr_msg (v : Word) : (r.setDaddr v).msg = r.msg := (rfl)

@[simp] theorem Regs.setSport_err (v : Half) : (r.setSport v).err = r.err := (rfl)
@[simp] theorem Regs.setSport_cause (v : Half) : (r.setSport v).cause = r.cause := (rfl)
@[simp] theorem Regs.setSport_saddr (v : Half) : (r.setSport v).saddr = r.saddr := (rfl)
@[simp] theorem Regs.setSport_daddr (v : Half) : (r.setSport v).daddr = r.daddr := (rfl)
@[simp] theorem Regs.setSport_sport (v : Half) : (r.setSport v).sport = v := (rfl)
@[simp] theorem Regs.setSport_dport (v : Half) : (r.setSport v).dport = r.dport := (rfl)
@[simp] theorem Regs.setSport_tickLo (v : Half) : (r.setSport v).tickLo = r.tickLo := (rfl)
@[simp] theorem Regs.setSport_tickHi (v : Half) : (r.setSport v).tickHi = r.tickHi := (rfl)
@[simp] theorem Regs.setSport_mlen (v : Half) : (r.setSport v).mlen = r.mlen := (rfl)
@[simp] theorem Regs.setSport_seq (v : Half) : (r.setSport v).seq = r.seq := (rfl)
@[simp] theorem Regs.setSport_dLo (v : Half) : (r.setSport v).dLo = r.dLo := (rfl)
@[simp] theorem Regs.setSport_dHi (v : Half) : (r.setSport v).dHi = r.dHi := (rfl)
@[simp] theorem Regs.setSport_h (v : Half) : (r.setSport v).h = r.h := (rfl)
@[simp] theorem Regs.setSport_secret (v : Half) : (r.setSport v).secret = r.secret := (rfl)
@[simp] theorem Regs.setSport_msg (v : Half) : (r.setSport v).msg = r.msg := (rfl)

@[simp] theorem Regs.setDport_err (v : Half) : (r.setDport v).err = r.err := (rfl)
@[simp] theorem Regs.setDport_cause (v : Half) : (r.setDport v).cause = r.cause := (rfl)
@[simp] theorem Regs.setDport_saddr (v : Half) : (r.setDport v).saddr = r.saddr := (rfl)
@[simp] theorem Regs.setDport_daddr (v : Half) : (r.setDport v).daddr = r.daddr := (rfl)
@[simp] theorem Regs.setDport_sport (v : Half) : (r.setDport v).sport = r.sport := (rfl)
@[simp] theorem Regs.setDport_dport (v : Half) : (r.setDport v).dport = v := (rfl)
@[simp] theorem Regs.setDport_tickLo (v : Half) : (r.setDport v).tickLo = r.tickLo := (rfl)
@[simp] theorem Regs.setDport_tickHi (v : Half) : (r.setDport v).tickHi = r.tickHi := (rfl)
@[simp] theorem Regs.setDport_mlen (v : Half) : (r.setDport v).mlen = r.mlen := (rfl)
@[simp] theorem Regs.setDport_seq (v : Half) : (r.setDport v).seq = r.seq := (rfl)
@[simp] theorem Regs.setDport_dLo (v : Half) : (r.setDport v).dLo = r.dLo := (rfl)
@[simp] theorem Regs.setDport_dHi (v : Half) : (r.setDport v).dHi = r.dHi := (rfl)
@[simp] theorem Regs.setDport_h (v : Half) : (r.setDport v).h = r.h := (rfl)
@[simp] theorem Regs.setDport_secret (v : Half) : (r.setDport v).secret = r.secret := (rfl)
@[simp] theorem Regs.setDport_msg (v : Half) : (r.setDport v).msg = r.msg := (rfl)

@[simp] theorem Regs.setTickLo_err (v : Word) : (r.setTickLo v).err = r.err := (rfl)
@[simp] theorem Regs.setTickLo_cause (v : Word) : (r.setTickLo v).cause = r.cause := (rfl)
@[simp] theorem Regs.setTickLo_saddr (v : Word) : (r.setTickLo v).saddr = r.saddr := (rfl)
@[simp] theorem Regs.setTickLo_daddr (v : Word) : (r.setTickLo v).daddr = r.daddr := (rfl)
@[simp] theorem Regs.setTickLo_sport (v : Word) : (r.setTickLo v).sport = r.sport := (rfl)
@[simp] theorem Regs.setTickLo_dport (v : Word) : (r.setTickLo v).dport = r.dport := (rfl)
@[simp] theorem Regs.setTickLo_tickLo (v : Word) : (r.setTickLo v).tickLo = v := (rfl)
@[simp] theorem Regs.setTickLo_tickHi (v : Word) : (r.setTickLo v).tickHi = r.tickHi := (rfl)
@[simp] theorem Regs.setTickLo_mlen (v : Word) : (r.setTickLo v).mlen = r.mlen := (rfl)
@[simp] theorem Regs.setTickLo_seq (v : Word) : (r.setTickLo v).seq = r.seq := (rfl)
@[simp] theorem Regs.setTickLo_dLo (v : Word) : (r.setTickLo v).dLo = r.dLo := (rfl)
@[simp] theorem Regs.setTickLo_dHi (v : Word) : (r.setTickLo v).dHi = r.dHi := (rfl)
@[simp] theorem Regs.setTickLo_h (v : Word) : (r.setTickLo v).h = r.h := (rfl)
@[simp] theorem Regs.setTickLo_secret (v : Word) : (r.setTickLo v).secret = r.secret := (rfl)
@[simp] theorem Regs.setTickLo_msg (v : Word) : (r.setTickLo v).msg = r.msg := (rfl)

@[simp] theorem Regs.setTickHi_err (v : Word) : (r.setTickHi v).err = r.err := (rfl)
@[simp] theorem Regs.setTickHi_cause (v : Word) : (r.setTickHi v).cause = r.cause := (rfl)
@[simp] theorem Regs.setTickHi_saddr (v : Word) : (r.setTickHi v).saddr = r.saddr := (rfl)
@[simp] theorem Regs.setTickHi_daddr (v : Word) : (r.setTickHi v).daddr = r.daddr := (rfl)
@[simp] theorem Regs.setTickHi_sport (v : Word) : (r.setTickHi v).sport = r.sport := (rfl)
@[simp] theorem Regs.setTickHi_dport (v : Word) : (r.setTickHi v).dport = r.dport := (rfl)
@[simp] theorem Regs.setTickHi_tickLo (v : Word) : (r.setTickHi v).tickLo = r.tickLo := (rfl)
@[simp] theorem Regs.setTickHi_tickHi (v : Word) : (r.setTickHi v).tickHi = v := (rfl)
@[simp] theorem Regs.setTickHi_mlen (v : Word) : (r.setTickHi v).mlen = r.mlen := (rfl)
@[simp] theorem Regs.setTickHi_seq (v : Word) : (r.setTickHi v).seq = r.seq := (rfl)
@[simp] theorem Regs.setTickHi_dLo (v : Word) : (r.setTickHi v).dLo = r.dLo := (rfl)
@[simp] theorem Regs.setTickHi_dHi (v : Word) : (r.setTickHi v).dHi = r.dHi := (rfl)
@[simp] theorem Regs.setTickHi_h (v : Word) : (r.setTickHi v).h = r.h := (rfl)
@[simp] theorem Regs.setTickHi_secret (v : Word) : (r.setTickHi v).secret = r.secret := (rfl)
@[simp] theorem Regs.setTickHi_msg (v : Word) : (r.setTickHi v).msg = r.msg := (rfl)

@[simp] theorem Regs.setMlen_err (v : BitVec 7) : (r.setMlen v).err = r.err := (rfl)
@[simp] theorem Regs.setMlen_cause (v : BitVec 7) : (r.setMlen v).cause = r.cause := (rfl)
@[simp] theorem Regs.setMlen_saddr (v : BitVec 7) : (r.setMlen v).saddr = r.saddr := (rfl)
@[simp] theorem Regs.setMlen_daddr (v : BitVec 7) : (r.setMlen v).daddr = r.daddr := (rfl)
@[simp] theorem Regs.setMlen_sport (v : BitVec 7) : (r.setMlen v).sport = r.sport := (rfl)
@[simp] theorem Regs.setMlen_dport (v : BitVec 7) : (r.setMlen v).dport = r.dport := (rfl)
@[simp] theorem Regs.setMlen_tickLo (v : BitVec 7) : (r.setMlen v).tickLo = r.tickLo := (rfl)
@[simp] theorem Regs.setMlen_tickHi (v : BitVec 7) : (r.setMlen v).tickHi = r.tickHi := (rfl)
@[simp] theorem Regs.setMlen_mlen (v : BitVec 7) : (r.setMlen v).mlen = v := (rfl)
@[simp] theorem Regs.setMlen_seq (v : BitVec 7) : (r.setMlen v).seq = r.seq := (rfl)
@[simp] theorem Regs.setMlen_dLo (v : BitVec 7) : (r.setMlen v).dLo = r.dLo := (rfl)
@[simp] theorem Regs.setMlen_dHi (v : BitVec 7) : (r.setMlen v).dHi = r.dHi := (rfl)
@[simp] theorem Regs.setMlen_h (v : BitVec 7) : (r.setMlen v).h = r.h := (rfl)
@[simp] theorem Regs.setMlen_secret (v : BitVec 7) : (r.setMlen v).secret = r.secret := (rfl)
@[simp] theorem Regs.setMlen_msg (v : BitVec 7) : (r.setMlen v).msg = r.msg := (rfl)

@[simp] theorem Regs.setSeq_err (v : Word) : (r.setSeq v).err = r.err := (rfl)
@[simp] theorem Regs.setSeq_cause (v : Word) : (r.setSeq v).cause = r.cause := (rfl)
@[simp] theorem Regs.setSeq_saddr (v : Word) : (r.setSeq v).saddr = r.saddr := (rfl)
@[simp] theorem Regs.setSeq_daddr (v : Word) : (r.setSeq v).daddr = r.daddr := (rfl)
@[simp] theorem Regs.setSeq_sport (v : Word) : (r.setSeq v).sport = r.sport := (rfl)
@[simp] theorem Regs.setSeq_dport (v : Word) : (r.setSeq v).dport = r.dport := (rfl)
@[simp] theorem Regs.setSeq_tickLo (v : Word) : (r.setSeq v).tickLo = r.tickLo := (rfl)
@[simp] theorem Regs.setSeq_tickHi (v : Word) : (r.setSeq v).tickHi = r.tickHi := (rfl)
@[simp] theorem Regs.setSeq_mlen (v : Word) : (r.setSeq v).mlen = r.mlen := (rfl)
@[simp] theorem Regs.setSeq_seq (v : Word) : (r.setSeq v).seq = v := (rfl)
@[simp] theorem Regs.setSeq_dLo (v : Word) : (r.setSeq v).dLo = r.dLo := (rfl)
@[simp] theorem Regs.setSeq_dHi (v : Word) : (r.setSeq v).dHi = r.dHi := (rfl)
@[simp] theorem Regs.setSeq_h (v : Word) : (r.setSeq v).h = r.h := (rfl)
@[simp] theorem Regs.setSeq_secret (v : Word) : (r.setSeq v).secret = r.secret := (rfl)
@[simp] theorem Regs.setSeq_msg (v : Word) : (r.setSeq v).msg = r.msg := (rfl)

@[simp] theorem Regs.setDLo_err (v : Word) : (r.setDLo v).err = r.err := (rfl)
@[simp] theorem Regs.setDLo_cause (v : Word) : (r.setDLo v).cause = r.cause := (rfl)
@[simp] theorem Regs.setDLo_saddr (v : Word) : (r.setDLo v).saddr = r.saddr := (rfl)
@[simp] theorem Regs.setDLo_daddr (v : Word) : (r.setDLo v).daddr = r.daddr := (rfl)
@[simp] theorem Regs.setDLo_sport (v : Word) : (r.setDLo v).sport = r.sport := (rfl)
@[simp] theorem Regs.setDLo_dport (v : Word) : (r.setDLo v).dport = r.dport := (rfl)
@[simp] theorem Regs.setDLo_tickLo (v : Word) : (r.setDLo v).tickLo = r.tickLo := (rfl)
@[simp] theorem Regs.setDLo_tickHi (v : Word) : (r.setDLo v).tickHi = r.tickHi := (rfl)
@[simp] theorem Regs.setDLo_mlen (v : Word) : (r.setDLo v).mlen = r.mlen := (rfl)
@[simp] theorem Regs.setDLo_seq (v : Word) : (r.setDLo v).seq = r.seq := (rfl)
@[simp] theorem Regs.setDLo_dLo (v : Word) : (r.setDLo v).dLo = v := (rfl)
@[simp] theorem Regs.setDLo_dHi (v : Word) : (r.setDLo v).dHi = r.dHi := (rfl)
@[simp] theorem Regs.setDLo_h (v : Word) : (r.setDLo v).h = r.h := (rfl)
@[simp] theorem Regs.setDLo_secret (v : Word) : (r.setDLo v).secret = r.secret := (rfl)
@[simp] theorem Regs.setDLo_msg (v : Word) : (r.setDLo v).msg = r.msg := (rfl)

@[simp] theorem Regs.setDHi_err (v : Word) : (r.setDHi v).err = r.err := (rfl)
@[simp] theorem Regs.setDHi_cause (v : Word) : (r.setDHi v).cause = r.cause := (rfl)
@[simp] theorem Regs.setDHi_saddr (v : Word) : (r.setDHi v).saddr = r.saddr := (rfl)
@[simp] theorem Regs.setDHi_daddr (v : Word) : (r.setDHi v).daddr = r.daddr := (rfl)
@[simp] theorem Regs.setDHi_sport (v : Word) : (r.setDHi v).sport = r.sport := (rfl)
@[simp] theorem Regs.setDHi_dport (v : Word) : (r.setDHi v).dport = r.dport := (rfl)
@[simp] theorem Regs.setDHi_tickLo (v : Word) : (r.setDHi v).tickLo = r.tickLo := (rfl)
@[simp] theorem Regs.setDHi_tickHi (v : Word) : (r.setDHi v).tickHi = r.tickHi := (rfl)
@[simp] theorem Regs.setDHi_mlen (v : Word) : (r.setDHi v).mlen = r.mlen := (rfl)
@[simp] theorem Regs.setDHi_seq (v : Word) : (r.setDHi v).seq = r.seq := (rfl)
@[simp] theorem Regs.setDHi_dLo (v : Word) : (r.setDHi v).dLo = r.dLo := (rfl)
@[simp] theorem Regs.setDHi_dHi (v : Word) : (r.setDHi v).dHi = v := (rfl)
@[simp] theorem Regs.setDHi_h (v : Word) : (r.setDHi v).h = r.h := (rfl)
@[simp] theorem Regs.setDHi_secret (v : Word) : (r.setDHi v).secret = r.secret := (rfl)
@[simp] theorem Regs.setDHi_msg (v : Word) : (r.setDHi v).msg = r.msg := (rfl)

@[simp] theorem Regs.setH_err (v : Vector Word 4) : (r.setH v).err = r.err := (rfl)
@[simp] theorem Regs.setH_cause (v : Vector Word 4) : (r.setH v).cause = r.cause := (rfl)
@[simp] theorem Regs.setH_saddr (v : Vector Word 4) : (r.setH v).saddr = r.saddr := (rfl)
@[simp] theorem Regs.setH_daddr (v : Vector Word 4) : (r.setH v).daddr = r.daddr := (rfl)
@[simp] theorem Regs.setH_sport (v : Vector Word 4) : (r.setH v).sport = r.sport := (rfl)
@[simp] theorem Regs.setH_dport (v : Vector Word 4) : (r.setH v).dport = r.dport := (rfl)
@[simp] theorem Regs.setH_tickLo (v : Vector Word 4) : (r.setH v).tickLo = r.tickLo := (rfl)
@[simp] theorem Regs.setH_tickHi (v : Vector Word 4) : (r.setH v).tickHi = r.tickHi := (rfl)
@[simp] theorem Regs.setH_mlen (v : Vector Word 4) : (r.setH v).mlen = r.mlen := (rfl)
@[simp] theorem Regs.setH_seq (v : Vector Word 4) : (r.setH v).seq = r.seq := (rfl)
@[simp] theorem Regs.setH_dLo (v : Vector Word 4) : (r.setH v).dLo = r.dLo := (rfl)
@[simp] theorem Regs.setH_dHi (v : Vector Word 4) : (r.setH v).dHi = r.dHi := (rfl)
@[simp] theorem Regs.setH_h (v : Vector Word 4) : (r.setH v).h = v := (rfl)
@[simp] theorem Regs.setH_secret (v : Vector Word 4) : (r.setH v).secret = r.secret := (rfl)
@[simp] theorem Regs.setH_msg (v : Vector Word 4) : (r.setH v).msg = r.msg := (rfl)

@[simp] theorem Regs.setSecret_err (v : Vector Word 16) : (r.setSecret v).err = r.err := (rfl)
@[simp] theorem Regs.setSecret_cause (v : Vector Word 16) : (r.setSecret v).cause = r.cause := (rfl)
@[simp] theorem Regs.setSecret_saddr (v : Vector Word 16) : (r.setSecret v).saddr = r.saddr := (rfl)
@[simp] theorem Regs.setSecret_daddr (v : Vector Word 16) : (r.setSecret v).daddr = r.daddr := (rfl)
@[simp] theorem Regs.setSecret_sport (v : Vector Word 16) : (r.setSecret v).sport = r.sport := (rfl)
@[simp] theorem Regs.setSecret_dport (v : Vector Word 16) : (r.setSecret v).dport = r.dport := (rfl)
@[simp] theorem Regs.setSecret_tickLo (v : Vector Word 16) : (r.setSecret v).tickLo = r.tickLo := (rfl)
@[simp] theorem Regs.setSecret_tickHi (v : Vector Word 16) : (r.setSecret v).tickHi = r.tickHi := (rfl)
@[simp] theorem Regs.setSecret_mlen (v : Vector Word 16) : (r.setSecret v).mlen = r.mlen := (rfl)
@[simp] theorem Regs.setSecret_seq (v : Vector Word 16) : (r.setSecret v).seq = r.seq := (rfl)
@[simp] theorem Regs.setSecret_dLo (v : Vector Word 16) : (r.setSecret v).dLo = r.dLo := (rfl)
@[simp] theorem Regs.setSecret_dHi (v : Vector Word 16) : (r.setSecret v).dHi = r.dHi := (rfl)
@[simp] theorem Regs.setSecret_h (v : Vector Word 16) : (r.setSecret v).h = r.h := (rfl)
@[simp] theorem Regs.setSecret_secret (v : Vector Word 16) : (r.setSecret v).secret = v := (rfl)
@[simp] theorem Regs.setSecret_msg (v : Vector Word 16) : (r.setSecret v).msg = r.msg := (rfl)

@[simp] theorem Regs.setMsg_err (v : Vector Word 16) : (r.setMsg v).err = r.err := (rfl)
@[simp] theorem Regs.setMsg_cause (v : Vector Word 16) : (r.setMsg v).cause = r.cause := (rfl)
@[simp] theorem Regs.setMsg_saddr (v : Vector Word 16) : (r.setMsg v).saddr = r.saddr := (rfl)
@[simp] theorem Regs.setMsg_daddr (v : Vector Word 16) : (r.setMsg v).daddr = r.daddr := (rfl)
@[simp] theorem Regs.setMsg_sport (v : Vector Word 16) : (r.setMsg v).sport = r.sport := (rfl)
@[simp] theorem Regs.setMsg_dport (v : Vector Word 16) : (r.setMsg v).dport = r.dport := (rfl)
@[simp] theorem Regs.setMsg_tickLo (v : Vector Word 16) : (r.setMsg v).tickLo = r.tickLo := (rfl)
@[simp] theorem Regs.setMsg_tickHi (v : Vector Word 16) : (r.setMsg v).tickHi = r.tickHi := (rfl)
@[simp] theorem Regs.setMsg_mlen (v : Vector Word 16) : (r.setMsg v).mlen = r.mlen := (rfl)
@[simp] theorem Regs.setMsg_seq (v : Vector Word 16) : (r.setMsg v).seq = r.seq := (rfl)
@[simp] theorem Regs.setMsg_dLo (v : Vector Word 16) : (r.setMsg v).dLo = r.dLo := (rfl)
@[simp] theorem Regs.setMsg_dHi (v : Vector Word 16) : (r.setMsg v).dHi = r.dHi := (rfl)
@[simp] theorem Regs.setMsg_h (v : Vector Word 16) : (r.setMsg v).h = r.h := (rfl)
@[simp] theorem Regs.setMsg_secret (v : Vector Word 16) : (r.setMsg v).secret = r.secret := (rfl)
@[simp] theorem Regs.setMsg_msg (v : Vector Word 16) : (r.setMsg v).msg = v := (rfl)

@[simp] theorem Regs.acknowledge_err : r.acknowledge.err = 0#1 := (rfl)
@[simp] theorem Regs.acknowledge_cause : r.acknowledge.cause = 0#2 := (rfl)
@[simp] theorem Regs.acknowledge_saddr : r.acknowledge.saddr = r.saddr := (rfl)
@[simp] theorem Regs.acknowledge_daddr : r.acknowledge.daddr = r.daddr := (rfl)
@[simp] theorem Regs.acknowledge_sport : r.acknowledge.sport = r.sport := (rfl)
@[simp] theorem Regs.acknowledge_dport : r.acknowledge.dport = r.dport := (rfl)
@[simp] theorem Regs.acknowledge_tickLo : r.acknowledge.tickLo = r.tickLo := (rfl)
@[simp] theorem Regs.acknowledge_tickHi : r.acknowledge.tickHi = r.tickHi := (rfl)
@[simp] theorem Regs.acknowledge_mlen : r.acknowledge.mlen = r.mlen := (rfl)
@[simp] theorem Regs.acknowledge_seq : r.acknowledge.seq = r.seq := (rfl)
@[simp] theorem Regs.acknowledge_dLo : r.acknowledge.dLo = r.dLo := (rfl)
@[simp] theorem Regs.acknowledge_dHi : r.acknowledge.dHi = r.dHi := (rfl)
@[simp] theorem Regs.acknowledge_h : r.acknowledge.h = r.h := (rfl)
@[simp] theorem Regs.acknowledge_secret : r.acknowledge.secret = r.secret := (rfl)
@[simp] theorem Regs.acknowledge_msg : r.acknowledge.msg = r.msg := (rfl)

end

section
variable (s : State)

@[simp] theorem State.withRegs_regs (r : Regs) : (s.withRegs r).regs = r := (rfl)
@[simp] theorem State.withRegs_inputs (r : Regs) : (s.withRegs r).inputs = s.inputs := (rfl)
@[simp] theorem State.withRegs_reads (r : Regs) : (s.withRegs r).reads = s.reads := (rfl)
@[simp] theorem State.withRegs_reports (r : Regs) : (s.withRegs r).reports = s.reports := (rfl)

@[simp] theorem State.withInputs_regs (es : List HostEvent) : (s.withInputs es).regs = s.regs := (rfl)
@[simp] theorem State.withInputs_inputs (es : List HostEvent) : (s.withInputs es).inputs = es := (rfl)
@[simp] theorem State.withInputs_reads (es : List HostEvent) : (s.withInputs es).reads = s.reads := (rfl)
@[simp] theorem State.withInputs_reports (es : List HostEvent) : (s.withInputs es).reports = s.reports := (rfl)

@[simp] theorem State.pushRead_regs (w : Word) : (s.pushRead w).regs = s.regs := (rfl)
@[simp] theorem State.pushRead_inputs (w : Word) : (s.pushRead w).inputs = s.inputs := (rfl)
@[simp] theorem State.pushRead_reads (w : Word) : (s.pushRead w).reads = w :: s.reads := (rfl)
@[simp] theorem State.pushRead_reports (w : Word) : (s.pushRead w).reports = s.reports := (rfl)

@[simp] theorem State.record_regs (e : Report) : (s.record e).regs = s.regs := (rfl)
@[simp] theorem State.record_inputs (e : Report) : (s.record e).inputs = s.inputs := (rfl)
@[simp] theorem State.record_reads (e : Report) : (s.record e).reads = s.reads := (rfl)
@[simp] theorem State.record_reports (e : Report) : (s.record e).reports = e :: s.reports := (rfl)

/-- The last registers stored are the ones that stand. -/
@[simp] theorem State.withRegs_withRegs (r r' : Regs) : (s.withRegs r).withRegs r' = s.withRegs r' := (rfl)

/-- Storing back the registers that stand changes nothing. -/
@[simp] theorem State.withRegs_self : s.withRegs s.regs = s := (rfl)

end

end Sys2Proof.Machine
end

