-- ==== Sys2Proof/Laws/Commands.lean ====
section
/-! SUPPORT. One lemma per register for what each phase of a command leaves: no proof about a register unfolds a
phase. The registers a phase does not write are rewritten as equations (not by rfl), so that neither simp nor the
kernel compares the digests themselves. -/

namespace Sys2Proof.Machine

section
variable (r : Regs) (d : DWord)

@[simp] theorem packM_err : (packM r).err = r.err := by rw [packM, Regs.setH_err]
@[simp] theorem packM_cause : (packM r).cause = r.cause := by rw [packM, Regs.setH_cause]
@[simp] theorem packM_saddr : (packM r).saddr = r.saddr := by rw [packM, Regs.setH_saddr]
@[simp] theorem packM_daddr : (packM r).daddr = r.daddr := by rw [packM, Regs.setH_daddr]
@[simp] theorem packM_sport : (packM r).sport = r.sport := by rw [packM, Regs.setH_sport]
@[simp] theorem packM_dport : (packM r).dport = r.dport := by rw [packM, Regs.setH_dport]
@[simp] theorem packM_tickLo : (packM r).tickLo = r.tickLo := by rw [packM, Regs.setH_tickLo]
@[simp] theorem packM_tickHi : (packM r).tickHi = r.tickHi := by rw [packM, Regs.setH_tickHi]
@[simp] theorem packM_mlen : (packM r).mlen = r.mlen := by rw [packM, Regs.setH_mlen]
@[simp] theorem packM_seq : (packM r).seq = r.seq := by rw [packM, Regs.setH_seq]
@[simp] theorem packM_dLo : (packM r).dLo = r.dLo := by rw [packM, Regs.setH_dLo]
@[simp] theorem packM_dHi : (packM r).dHi = r.dHi := by rw [packM, Regs.setH_dHi]
@[simp] theorem packM_h : (packM r).h = #v[r.saddr, r.daddr, r.ports, r.designated] := by rw [packM, Regs.setH_h]
@[simp] theorem packM_secret : (packM r).secret = r.secret := by rw [packM, Regs.setH_secret]
@[simp] theorem packM_msg : (packM r).msg = r.msg := by rw [packM, Regs.setH_msg]

@[simp] theorem packS_err : (packS r).err = r.err := by rw [packS, Regs.setMlen_err, Regs.setMsg_err]
@[simp] theorem packS_cause : (packS r).cause = r.cause := by rw [packS, Regs.setMlen_cause, Regs.setMsg_cause]
@[simp] theorem packS_saddr : (packS r).saddr = r.saddr := by rw [packS, Regs.setMlen_saddr, Regs.setMsg_saddr]
@[simp] theorem packS_daddr : (packS r).daddr = r.daddr := by rw [packS, Regs.setMlen_daddr, Regs.setMsg_daddr]
@[simp] theorem packS_sport : (packS r).sport = r.sport := by rw [packS, Regs.setMlen_sport, Regs.setMsg_sport]
@[simp] theorem packS_dport : (packS r).dport = r.dport := by rw [packS, Regs.setMlen_dport, Regs.setMsg_dport]
@[simp] theorem packS_tickLo : (packS r).tickLo = r.tickLo := by rw [packS, Regs.setMlen_tickLo, Regs.setMsg_tickLo]
@[simp] theorem packS_tickHi : (packS r).tickHi = r.tickHi := by rw [packS, Regs.setMlen_tickHi, Regs.setMsg_tickHi]
@[simp] theorem packS_mlen : (packS r).mlen = BitVec.ofNat 7 Config.packedLen := by rw [packS, Regs.setMlen_mlen]
@[simp] theorem packS_seq : (packS r).seq = r.seq := by rw [packS, Regs.setMlen_seq, Regs.setMsg_seq]
@[simp] theorem packS_dLo : (packS r).dLo = r.dLo := by rw [packS, Regs.setMlen_dLo, Regs.setMsg_dLo]
@[simp] theorem packS_dHi : (packS r).dHi = r.dHi := by rw [packS, Regs.setMlen_dHi, Regs.setMsg_dHi]
@[simp] theorem packS_h : (packS r).h = r.h := by rw [packS, Regs.setMlen_h, Regs.setMsg_h]
@[simp] theorem packS_secret : (packS r).secret = r.secret := by rw [packS, Regs.setMlen_secret, Regs.setMsg_secret]
@[simp] theorem packS_msg : (packS r).msg = storePacked (packedBytes r) r.msg := by rw [packS, Regs.setMlen_msg, Regs.setMsg_msg]

@[simp] theorem compressH_err : (compressH r).err = r.err := by rw [compressH, Regs.setH_err]
@[simp] theorem compressH_cause : (compressH r).cause = r.cause := by rw [compressH, Regs.setH_cause]
@[simp] theorem compressH_saddr : (compressH r).saddr = r.saddr := by rw [compressH, Regs.setH_saddr]
@[simp] theorem compressH_daddr : (compressH r).daddr = r.daddr := by rw [compressH, Regs.setH_daddr]
@[simp] theorem compressH_sport : (compressH r).sport = r.sport := by rw [compressH, Regs.setH_sport]
@[simp] theorem compressH_dport : (compressH r).dport = r.dport := by rw [compressH, Regs.setH_dport]
@[simp] theorem compressH_tickLo : (compressH r).tickLo = r.tickLo := by rw [compressH, Regs.setH_tickLo]
@[simp] theorem compressH_tickHi : (compressH r).tickHi = r.tickHi := by rw [compressH, Regs.setH_tickHi]
@[simp] theorem compressH_mlen : (compressH r).mlen = r.mlen := by rw [compressH, Regs.setH_mlen]
@[simp] theorem compressH_seq : (compressH r).seq = r.seq := by rw [compressH, Regs.setH_seq]
@[simp] theorem compressH_dLo : (compressH r).dLo = r.dLo := by rw [compressH, Regs.setH_dLo]
@[simp] theorem compressH_dHi : (compressH r).dHi = r.dHi := by rw [compressH, Regs.setH_dHi]
@[simp] theorem compressH_h : (compressH r).h = compress r.h r.secret := by rw [compressH, Regs.setH_h]
@[simp] theorem compressH_secret : (compressH r).secret = r.secret := by rw [compressH, Regs.setH_secret]
@[simp] theorem compressH_msg : (compressH r).msg = r.msg := by rw [compressH, Regs.setH_msg]

@[simp] theorem scaleM_err : (scaleM r).err = r.err := by rw [scaleM, Regs.setSeq_err]
@[simp] theorem scaleM_cause : (scaleM r).cause = r.cause := by rw [scaleM, Regs.setSeq_cause]
@[simp] theorem scaleM_saddr : (scaleM r).saddr = r.saddr := by rw [scaleM, Regs.setSeq_saddr]
@[simp] theorem scaleM_daddr : (scaleM r).daddr = r.daddr := by rw [scaleM, Regs.setSeq_daddr]
@[simp] theorem scaleM_sport : (scaleM r).sport = r.sport := by rw [scaleM, Regs.setSeq_sport]
@[simp] theorem scaleM_dport : (scaleM r).dport = r.dport := by rw [scaleM, Regs.setSeq_dport]
@[simp] theorem scaleM_tickLo : (scaleM r).tickLo = r.tickLo := by rw [scaleM, Regs.setSeq_tickLo]
@[simp] theorem scaleM_tickHi : (scaleM r).tickHi = r.tickHi := by rw [scaleM, Regs.setSeq_tickHi]
@[simp] theorem scaleM_mlen : (scaleM r).mlen = r.mlen := by rw [scaleM, Regs.setSeq_mlen]
@[simp] theorem scaleM_seq : (scaleM r).seq = scale r.h[0] r.tick := by rw [scaleM, Regs.setSeq_seq]
@[simp] theorem scaleM_dLo : (scaleM r).dLo = r.dLo := by rw [scaleM, Regs.setSeq_dLo]
@[simp] theorem scaleM_dHi : (scaleM r).dHi = r.dHi := by rw [scaleM, Regs.setSeq_dHi]
@[simp] theorem scaleM_h : (scaleM r).h = r.h := by rw [scaleM, Regs.setSeq_h]
@[simp] theorem scaleM_secret : (scaleM r).secret = r.secret := by rw [scaleM, Regs.setSeq_secret]
@[simp] theorem scaleM_msg : (scaleM r).msg = r.msg := by rw [scaleM, Regs.setSeq_msg]

@[simp] theorem scaleS_err : (scaleS r).err = r.err := by rw [scaleS, Regs.setSeq_err]
@[simp] theorem scaleS_cause : (scaleS r).cause = r.cause := by rw [scaleS, Regs.setSeq_cause]
@[simp] theorem scaleS_saddr : (scaleS r).saddr = r.saddr := by rw [scaleS, Regs.setSeq_saddr]
@[simp] theorem scaleS_daddr : (scaleS r).daddr = r.daddr := by rw [scaleS, Regs.setSeq_daddr]
@[simp] theorem scaleS_sport : (scaleS r).sport = r.sport := by rw [scaleS, Regs.setSeq_sport]
@[simp] theorem scaleS_dport : (scaleS r).dport = r.dport := by rw [scaleS, Regs.setSeq_dport]
@[simp] theorem scaleS_tickLo : (scaleS r).tickLo = r.tickLo := by rw [scaleS, Regs.setSeq_tickLo]
@[simp] theorem scaleS_tickHi : (scaleS r).tickHi = r.tickHi := by rw [scaleS, Regs.setSeq_tickHi]
@[simp] theorem scaleS_mlen : (scaleS r).mlen = r.mlen := by rw [scaleS, Regs.setSeq_mlen]
@[simp] theorem scaleS_seq : (scaleS r).seq = scale (r.digestBase Config.baseView) r.tick := by rw [scaleS, Regs.setSeq_seq]
@[simp] theorem scaleS_dLo : (scaleS r).dLo = r.dLo := by rw [scaleS, Regs.setSeq_dLo]
@[simp] theorem scaleS_dHi : (scaleS r).dHi = r.dHi := by rw [scaleS, Regs.setSeq_dHi]
@[simp] theorem scaleS_h : (scaleS r).h = r.h := by rw [scaleS, Regs.setSeq_h]
@[simp] theorem scaleS_secret : (scaleS r).secret = r.secret := by rw [scaleS, Regs.setSeq_secret]
@[simp] theorem scaleS_msg : (scaleS r).msg = r.msg := by rw [scaleS, Regs.setSeq_msg]

@[simp] theorem storeDigest_err : (storeDigest d r).err = r.err := by rw [storeDigest, Regs.setDHi_err, Regs.setDLo_err]
@[simp] theorem storeDigest_cause : (storeDigest d r).cause = r.cause := by rw [storeDigest, Regs.setDHi_cause, Regs.setDLo_cause]
@[simp] theorem storeDigest_saddr : (storeDigest d r).saddr = r.saddr := by rw [storeDigest, Regs.setDHi_saddr, Regs.setDLo_saddr]
@[simp] theorem storeDigest_daddr : (storeDigest d r).daddr = r.daddr := by rw [storeDigest, Regs.setDHi_daddr, Regs.setDLo_daddr]
@[simp] theorem storeDigest_sport : (storeDigest d r).sport = r.sport := by rw [storeDigest, Regs.setDHi_sport, Regs.setDLo_sport]
@[simp] theorem storeDigest_dport : (storeDigest d r).dport = r.dport := by rw [storeDigest, Regs.setDHi_dport, Regs.setDLo_dport]
@[simp] theorem storeDigest_tickLo : (storeDigest d r).tickLo = r.tickLo := by rw [storeDigest, Regs.setDHi_tickLo, Regs.setDLo_tickLo]
@[simp] theorem storeDigest_tickHi : (storeDigest d r).tickHi = r.tickHi := by rw [storeDigest, Regs.setDHi_tickHi, Regs.setDLo_tickHi]
@[simp] theorem storeDigest_mlen : (storeDigest d r).mlen = r.mlen := by rw [storeDigest, Regs.setDHi_mlen, Regs.setDLo_mlen]
@[simp] theorem storeDigest_seq : (storeDigest d r).seq = r.seq := by rw [storeDigest, Regs.setDHi_seq, Regs.setDLo_seq]
@[simp] theorem storeDigest_dLo : (storeDigest d r).dLo = digestWord d 0 := by rw [storeDigest, Regs.setDHi_dLo, Regs.setDLo_dLo]
@[simp] theorem storeDigest_dHi : (storeDigest d r).dHi = digestWord d 32 := by rw [storeDigest, Regs.setDHi_dHi]
@[simp] theorem storeDigest_h : (storeDigest d r).h = r.h := by rw [storeDigest, Regs.setDHi_h, Regs.setDLo_h]
@[simp] theorem storeDigest_secret : (storeDigest d r).secret = r.secret := by rw [storeDigest, Regs.setDHi_secret, Regs.setDLo_secret]
@[simp] theorem storeDigest_msg : (storeDigest d r).msg = r.msg := by rw [storeDigest, Regs.setDHi_msg, Regs.setDLo_msg]

/-! ### The operands after a phase -/

@[simp] theorem packM_tick : (packM r).tick = r.tick := by rw [Regs.tick, Regs.tick, packM_tickLo, packM_tickHi]
@[simp] theorem packS_tick : (packS r).tick = r.tick := by rw [Regs.tick, Regs.tick, packS_tickLo, packS_tickHi]
@[simp] theorem compressH_tick : (compressH r).tick = r.tick := by
  rw [Regs.tick, Regs.tick, compressH_tickLo, compressH_tickHi]
@[simp] theorem storeDigest_tick : (storeDigest d r).tick = r.tick := by
  rw [Regs.tick, Regs.tick, storeDigest_tickLo, storeDigest_tickHi]

/-- The low digest word is the low half of the digest (rules R41 and R79). -/
theorem digestWord_low : digestWord d 0 = d.extractLsb' 0 32 := by
  simp only [digestWord, Config.byteView, wordOfBytes]
  apply BitVec.eq_of_getLsbD_eq
  intro i hi
  simp only [BitVec.getLsbD_append, BitVec.getLsbD_extractLsb']
  interval_cases i <;> simp

/-- The high digest word is the high half of the digest (rules R41 and R79). -/
theorem digestWord_high : digestWord d 32 = d.extractLsb' 32 32 := by
  simp only [digestWord, Config.byteView, wordOfBytes]
  apply BitVec.eq_of_getLsbD_eq
  intro i hi
  simp only [BitVec.getLsbD_append, BitVec.getLsbD_extractLsb']
  interval_cases i <;> simp

/-- The first four digest bytes in the order BASE_VIEW are `D_LO` (rule R97). -/
theorem digestBase_eq_dLo : r.digestBase Config.baseView = r.dLo := by
  simp [Regs.digestBase, Regs.digestBytes, Config.byteView, Config.baseView, wordBytes]

end

end Sys2Proof.Machine
end

