-- ==== Sys2Proof/Laws/Ops.lean ====
section
/-! SUPPORT. For each shared operation, once, everything it can do. -/

namespace Sys2Proof.Machine

/-! ### The register map -/

theorem regOfIndex_eq_none {i : BitVec 6} : regOfIndex i = none ↔ 48 ≤ i.toNat := by
  revert i; decide

theorem regOfIndex_eq_some {i : BitVec 6} {reg : Reg} : regOfIndex i = some reg ↔ i = indexOfReg reg := by
  constructor
  · intro h
    have back : ∀ j : BitVec 6, ∀ r, regOfIndex j = some r → j = indexOfReg r := by
      intro j
      have all : ∀ k : BitVec 6, (regOfIndex k).all (fun r => k == indexOfReg r) = true := by decide
      intro r hr
      simpa [hr] using all j
    exact back i reg h
  · rintro rfl
    cases reg with
    | h k => revert k; decide
    | s k => revert k; decide
    | msg k => revert k; decide
    | _ => rfl

@[simp] theorem regOfIndex_indexOfReg (reg : Reg) : regOfIndex (indexOfReg reg) = some reg :=
  regOfIndex_eq_some.2 rfl

/-! ### The error report -/

section
variable (e : Report) (s : State)

theorem raise_regs :
    (raise e s).regs = if s.regs.err = 0#1 then s.regs.setStatus 1#1 e.code else s.regs := by
  unfold raise; split <;> simp

@[simp] theorem raise_inputs : (raise e s).inputs = s.inputs := by unfold raise; split <;> simp
@[simp] theorem raise_reads : (raise e s).reads = s.reads := by unfold raise; split <;> simp
@[simp] theorem raise_reports : (raise e s).reports = e :: s.reports := by unfold raise; split <;> simp

/-- A report is the first since `ERR` was last clear and owns `CAUSE`, or it is dropped. -/
theorem raise_cases :
    (s.regs.err = 0#1 ∧ raise e s = (s.withRegs (s.regs.setStatus 1#1 e.code)).record e) ∨
    (s.regs.err = 1#1 ∧ raise e s = s.record e) := by
  have hb : s.regs.err = 0#1 ∨ s.regs.err = 1#1 := by
    have : ∀ b : BitVec 1, b = 0#1 ∨ b = 1#1 := by decide
    exact this _
  rcases hb with h | h
  · exact .inl ⟨h, by simp [raise, h]⟩
  · exact .inr ⟨h, by simp [raise, h]⟩

/-- A report leaves every register but `STATUS` as it was. -/
theorem readReg_raise {reg : Reg} (h : reg ≠ .status) :
    readReg reg (raise e s).regs = readReg reg s.regs := by
  rcases raise_cases e s with ⟨-, h'⟩ | ⟨-, h'⟩ <;> rw [h'] <;> cases reg <;> simp_all [readReg]

end

/-! ### The commands -/

/-- The state a command leaves. -/
def result : Instr → State → State
  | .nop, s => s
  | .packM, s => s.withRegs (packM s.regs)
  | .packS, s => s.withRegs (packS s.regs)
  | .compress, s => s.withRegs (compressH s.regs)
  | .khash, s => khash s
  | .scaleM, s => s.withRegs (scaleM s.regs)
  | .scaleS, s => s.withRegs (scaleS s.regs)
  | .deriveM, s => deriveM s
  | .deriveS, s => deriveS s

/-- Every command answers a next state. -/
theorem exec_eq_next (i : Instr) (s : State) : exec i s = .next (result i s) := by cases i <;> rfl

theorem exec_next {i : Instr} {s t : State} (h : exec i s = .next t) : t = result i s := by
  rw [exec_eq_next] at h; exact (Host.Outcome.next.inj h).symm

/-- `KHASH` reports a length above 64 and does nothing else, or stores the digest. -/
theorem khash_cases (s : State) :
    (64 < s.regs.mlen.toNat ∧ khash s = raise (.invalidLength s.regs.mlen) s) ∨
    (s.regs.mlen.toNat ≤ 64 ∧ khash s = s.withRegs (storeDigest s.regs.digest s.regs)) := by
  by_cases h : 64 < s.regs.mlen.toNat
  · exact .inl ⟨h, by simp [khash, Config.maxLen, h]⟩
  · exact .inr ⟨by omega, by simp [khash, Config.maxLen, h]⟩

/-- `KHASH` on registers with a legal length stores their digest. -/
theorem khash_withRegs (s : State) {r : Regs} (h : r.mlen.toNat ≤ 64) :
    khash (s.withRegs r) = s.withRegs (storeDigest r.digest r) := by
  rw [khash, State.withRegs_regs, if_neg (by simp only [Config.maxLen]; omega), State.withRegs_withRegs]

theorem packS_mlen_legal (r : Regs) : (packS r).mlen.toNat ≤ 64 := by rw [packS_mlen]; decide

theorem deriveS_phases (s : State) :
    deriveS s = (khash (s.withRegs (packS s.regs))).withRegs (scaleS (khash (s.withRegs (packS s.regs))).regs) := rfl

/-- After `PACK.S` the length check always passes (rule R106). -/
theorem deriveS_eq (s : State) :
    deriveS s = s.withRegs (scaleS (storeDigest (packS s.regs).digest (packS s.regs))) := by
  rw [deriveS_phases, khash_withRegs s (packS_mlen_legal _), State.withRegs_regs, State.withRegs_withRegs]

/-- No command touches what the host has asked for or read. -/
theorem exec_next_frame {i : Instr} {s t : State} (h : exec i s = .next t) :
    t.inputs = s.inputs ∧ t.reads = s.reads := by
  obtain rfl := exec_next h
  cases i with
  | khash => rcases khash_cases s with ⟨-, h⟩ | ⟨-, h⟩ <;> simp [result, h]
  | deriveS => simp [result, deriveS_eq]
  | _ => simp [result, deriveM]

/-- `n` rounds are `SipRound` iterated `n` times. -/
theorem sipRounds_eq_iterate (n : Nat) (v : SipState) : sipRounds n v = Nat.iterate sipRound n v := by
  induction n generalizing v with
  | zero => rfl
  | succ n ih => exact ih (sipRound v)

/-! ### The access port -/

theorem execute_cases {w : Word} {s t : State} (h : execute w s = .next t) :
    (∃ i, decode w = .ok i ∧ exec i s = .next t) ∨
    (∃ e, decode w = .error e ∧ t = raise (.illegalCommand w) s) := by
  unfold execute at h
  split at h
  · exact .inl ⟨_, ‹_›, h⟩
  · exact .inr ⟨_, ‹_›, (Host.Outcome.next.inj h).symm⟩

theorem regWrite_cases {i : BitVec 6} {w : Word} {s t : State} (h : regWrite i w s = .next t) :
    (i = 0#6 ∧ execute w s = .next t) ∨
    (∃ reg, reg ≠ .cmd ∧ i = indexOfReg reg ∧ t = s.withRegs (writeReg reg w s.regs)) ∨
    (48 ≤ i.toNat ∧ t = s) := by
  unfold regWrite at h
  split at h
  · exact .inl ⟨regOfIndex_eq_some.1 ‹_›, h⟩
  · rename_i reg hne hreg
    refine .inr (.inl ⟨reg, ?_, regOfIndex_eq_some.1 hreg, (Host.Outcome.next.inj h).symm⟩)
    rintro rfl
    exact hne rfl
  · exact .inr (.inr ⟨regOfIndex_eq_none.1 ‹_›, (Host.Outcome.next.inj h).symm⟩)

theorem perform_cases {p : PortEvent} {s t : State} (h : perform p s = .next t) :
    (∃ i, p = .read i ∧ t = regRead i s) ∨
    (∃ i w, p = .write i w ∧ regWrite i w s = .next t) ∨
    (p = .reset ∧ t = resetEvent s) := by
  cases p with
  | read i => exact .inl ⟨i, rfl, (Host.Outcome.next.inj h).symm⟩
  | write i w => exact .inr (.inl ⟨i, w, rfl, h⟩)
  | reset => exact .inr (.inr ⟨rfl, (Host.Outcome.next.inj h).symm⟩)

theorem resolve_ok_iff_wf {e : HostEvent} : (∃ p, resolve e = .ok p) ↔ e.wf = true := by
  cases e with
  | memRead => simp only [resolve, HostEvent.wf]; split_ifs <;> simp_all
  | memWrite => simp only [resolve, HostEvent.wf]; split_ifs <;> simp_all
  | _ => simp [resolve, HostEvent.wf]

/-- What a step that answers a next state did: nothing was asked for, or the port delivered one event. -/
theorem step_cases {s t : State} (h : step s = .next t) :
    (s.inputs = [] ∧ t = s) ∨
    (∃ e rest p, s.inputs = e :: rest ∧ resolve e = .ok p ∧ perform p (s.withInputs rest) = .next t) := by
  unfold step nextEvent at h
  split at h
  · exact .inl ⟨‹_›, (Host.Outcome.next.inj h).symm⟩
  · rename_i e rest hin
    split at h
    · exact .inr ⟨e, rest, _, hin, ‹_›, h⟩
    · cases h

theorem step_of_inputs {s : State} {e : HostEvent} {rest : List HostEvent} {p : PortEvent}
    (hin : s.inputs = e :: rest) (hp : resolve e = .ok p) : step s = perform p (s.withInputs rest) := by
  simp [step, nextEvent, hin, hp]

/-- A write of a command word to `CMD` runs the command (rule R23). -/
theorem regWrite_cmd (w : Word) (s : State) : regWrite 0#6 w s = execute w s := rfl

/-- Every event the spec defines completes (rule R129). -/
theorem perform_completes (p : PortEvent) (s : State) : Completes (perform p s) := by
  cases p with
  | read i => exact ⟨_, rfl⟩
  | reset => exact ⟨_, rfl⟩
  | write i w =>
    simp only [perform, regWrite]
    split
    · unfold execute
      split
      · exact ⟨_, exec_eq_next _ _⟩
      · exact ⟨_, rfl⟩
    · exact ⟨_, rfl⟩
    · exact ⟨_, rfl⟩

/-! ### Runs -/

@[simp] theorem run_zero (s : State) : run 0 s = .next s := (rfl)

theorem core_run_succ (M : Host.Core) {s t : M.State} (h : M.step s = .next t) (k : Nat) :
    M.run (k + 1) s = M.run k t := by
  simp [Host.Core.run, h]

/-- A run whose first step completes goes on from there. -/
theorem run_succ {s t : State} (h : step s = .next t) (k : Nat) : run (k + 1) s = run k t :=
  core_run_succ Sys2Proof.core h k

end Sys2Proof.Machine
end

