-- ==== Sys2Proof/Laws/PerInstr.lean ====
section
/-! SUPPORT. Statements about every command, one lemma per constructor. -/

namespace Sys2Proof.Laws

/-- Rules R57 and R63: the command word of a command is read back as that command, has its reserved bits zero, and
carries its operation and backend in their fields. -/
def EncodeDecode.Statement (i : Instr) : Prop :=
  decode (encode i) = .ok i ∧ reservedField (encode i) = 0#27 ∧ opField (encode i) = opOf i ∧
    backendOfBit (backendField (encode i)) = backendOf i

theorem EncodeDecode.nop : EncodeDecode.Statement .nop := ⟨rfl, rfl, rfl, rfl⟩
theorem EncodeDecode.packM : EncodeDecode.Statement .packM := ⟨rfl, rfl, rfl, rfl⟩
theorem EncodeDecode.packS : EncodeDecode.Statement .packS := ⟨rfl, rfl, rfl, rfl⟩
theorem EncodeDecode.compress : EncodeDecode.Statement .compress := ⟨rfl, rfl, rfl, rfl⟩
theorem EncodeDecode.khash : EncodeDecode.Statement .khash := ⟨rfl, rfl, rfl, rfl⟩
theorem EncodeDecode.scaleM : EncodeDecode.Statement .scaleM := ⟨rfl, rfl, rfl, rfl⟩
theorem EncodeDecode.scaleS : EncodeDecode.Statement .scaleS := ⟨rfl, rfl, rfl, rfl⟩
theorem EncodeDecode.deriveM : EncodeDecode.Statement .deriveM := ⟨rfl, rfl, rfl, rfl⟩
theorem EncodeDecode.deriveS : EncodeDecode.Statement .deriveS := ⟨rfl, rfl, rfl, rfl⟩

end Sys2Proof.Laws
end

