-- ==== Sys2Proof/Tests/Slice0.lean ====
section
/-! SUPPORT. Small tests of single commands, with the values of spec/95_test_vectors.md and of the rules' own examples,
and one witness for the hypotheses of each statement that has any. -/

namespace Sys2Proof.Tests

open Sys2Proof Sys2Proof.Machine

/-! ### Well-formedness -/

/-- Rule R39: 1, 2, 8 and 0 bytes are no access, an offset that is no multiple of 4 is none. -/
theorem test_wf_width : (HostEvent.memRead 8#8 1).wf = false ∧ (HostEvent.memRead 8#8 2).wf = false ∧
    (HostEvent.memWrite 8#8 8 0#32).wf = false ∧ (HostEvent.memWrite 8#8 0 0#32).wf = false := by decide

theorem test_wf_alignment : (HostEvent.memRead 9#8 4).wf = false ∧ (HostEvent.memRead 10#8 4).wf = false ∧
    (HostEvent.memWrite 11#8 4 0#32).wf = false ∧ (HostEvent.memWrite 255#8 4 0#32).wf = false := by decide

theorem test_wf_accepts : (HostEvent.memRead 252#8 4).wf = true ∧ (HostEvent.memWrite 0#8 4 0#32).wf = true ∧
    (HostEvent.regRead 63#6).wf = true ∧ (HostEvent.regWrite 0#6 0x100#32).wf = true ∧ HostEvent.reset.wf = true ∧
    Instr.khash.wf = true := by decide

/-! ### Decoding: the words of rule R57 written out as `RSV || B || OP` (rule R55) -/

theorem test_decode_nop : decode (0#27 ++ 0#1 ++ 0#4 : BitVec (27 + 1 + 4)) = .ok .nop := by decide
theorem test_decode_packM : decode (0#27 ++ 0#1 ++ 1#4 : BitVec (27 + 1 + 4)) = .ok .packM := by decide
theorem test_decode_packS : decode (0#27 ++ 1#1 ++ 1#4 : BitVec (27 + 1 + 4)) = .ok .packS := by decide
theorem test_decode_compress : decode (0#27 ++ 0#1 ++ 2#4 : BitVec (27 + 1 + 4)) = .ok .compress := by decide
theorem test_decode_khash : decode (0#27 ++ 1#1 ++ 2#4 : BitVec (27 + 1 + 4)) = .ok .khash := by decide
theorem test_decode_scaleM : decode (0#27 ++ 0#1 ++ 3#4 : BitVec (27 + 1 + 4)) = .ok .scaleM := by decide
theorem test_decode_scaleS : decode (0#27 ++ 1#1 ++ 3#4 : BitVec (27 + 1 + 4)) = .ok .scaleS := by decide
theorem test_decode_deriveM : decode (0#27 ++ 0#1 ++ 4#4 : BitVec (27 + 1 + 4)) = .ok .deriveM := by decide
theorem test_decode_deriveS : decode (0#27 ++ 1#1 ++ 4#4 : BitVec (27 + 1 + 4)) = .ok .deriveS := by decide

/-- The command words of rule R57's table as hexadecimal numbers. -/
theorem test_encode : [Instr.nop, .packM, .packS, .compress, .khash, .scaleM, .scaleS, .deriveM, .deriveS].map encode =
    [0x00#32, 0x01#32, 0x11#32, 0x02#32, 0x12#32, 0x03#32, 0x13#32, 0x04#32, 0x14#32] := by decide

/-- Rule R58: each class of illegal words, by name. -/
theorem test_decode_illegal : decode 0x10#32 = .error .nopOfBackendOne ∧ decode 0x05#32 = .error .reservedOp ∧
    decode 0x1F#32 = .error .reservedOp ∧ decode 0x25#32 = .error .reservedBits ∧
    decode 0x80000004#32 = .error .reservedBits ∧ decode 0x100#32 = .error .reservedBits := by decide

theorem test_decodeTableWord : decodeTableWord 32 0x14 = some .deriveS ∧ decodeTableWord 8 0x12 = some .khash ∧
    decodeTableWord 32 0x10 = none ∧ decodeTableWord 40 0x100000000 = none := by decide

/-! ### One step -/

/-- A state with these registers and nothing else. -/
def stateOf (r : Regs) : State := { State.reset with regs := r }

/-- A state in which the host asks for these events. -/
def asking (es : List HostEvent) : State := { State.reset with inputs := es }

/-- The registers a command leaves. -/
def after (i : Instr) (r : Regs) : Option Regs :=
  match exec i (stateOf r) with
  | .next t => some t.regs
  | .fault _ => none
  | .refused _ => none

/-- The registers a step leaves. -/
def stepped (s : State) : Option Regs :=
  match step s with
  | .next t => some t.regs
  | .fault _ => none
  | .refused _ => none

/-- The test secret and the test tuple of spec/95_test_vectors.md. -/
def testRegs : Regs :=
  { Regs.reset with
    secret := testSecretWords, saddr := 0xC0A80001, daddr := 0x0A000002, sport := 0x1234, dport := 0x0050 }

theorem test_testSecret : testSecretWords.toList =
    [0x03020100#32, 0x07060504#32, 0x0b0a0908#32, 0x0f0e0d0c#32, 0x13121110#32, 0x17161514#32, 0x1b1a1918#32,
     0x1f1e1d1c#32, 0x23222120#32, 0x27262524#32, 0x2b2a2928#32, 0x2f2e2d2c#32, 0x33323130#32, 0x37363534#32,
     0x3b3a3938#32, 0x3f3e3d3c#32] := by decide

/-- Rule R109. -/
theorem test_nop : after .nop testRegs = some testRegs := by decide

/-- V4.1. -/
theorem test_packM : (after .packM testRegs).map (·.h) =
    some #v[0xC0A80001#32, 0x0A000002#32, 0x12340050#32, 0x3f3e3d3c#32] := by decide

/-- V4.11: `MSG[4]` kept, `MLEN` overwritten. -/
theorem test_packS :
    (after .packS { testRegs with msg := testRegs.msg.set 4 0xdeadbeef#32, mlen := 0x28 }).map
      (fun r => (r.msg.toList.take 5, r.mlen)) =
    some ([0x0100A8C0#32, 0x0200000A#32, 0x50003412#32, 0x3C3D3E3F#32, 0xdeadbeef#32], 16#7) := by decide

/-- V4.10: the message bytes. -/
theorem test_packS_bytes :
    (after .packS { testRegs with saddr := 0x01020304, daddr := 0x05060708, sport := 0x090a, dport := 0x0b0c }).map
      (·.messageBytes.take 16) =
    some [1#8, 2#8, 3#8, 4#8, 5#8, 6#8, 7#8, 8#8, 9#8, 10#8, 11#8, 12#8, 0x3f#8, 0x3e#8, 0x3d#8, 0x3c#8] := by decide

/-- V2.1: the block of `"abc"`. -/
theorem test_compress_abc :
    (after .compress { Regs.reset with
      h := #v[0x67452301#32, 0xefcdab89#32, 0x98badcfe#32, 0x10325476#32]
      secret := ((Vector.replicate 16 0#32).set 0 0x80636261#32).set 14 0x18#32 }).map (·.h) =
    some #v[0x98500190#32, 0xb04fd23c#32, 0x7d3f96d6#32, 0x727fe128#32] := by decide +kernel

/-- V2.4: the test secret as block. -/
theorem test_compress_secret : (after .compress { testRegs with h := Vector.replicate 4 0#32 }).map (·.h) =
    some #v[0x726c284d#32, 0xc54d0f2b#32, 0xd8a008e8#32, 0x45303b78#32] := by decide +kernel

/-- V3.3, with a byte above the length set (rule R81). -/
theorem test_khash : (after .khash { testRegs with
      msg := #v[0x03020100#32, 0x07060504#32, 0x0b0a0908#32, 0xff0e0d0c#32, 1#32, 2#32, 3#32, 4#32, 5#32, 6#32, 7#32,
        8#32, 9#32, 10#32, 11#32, 12#32], mlen := 15 }).map (fun r => (r.dHi, r.dLo)) =
    some (0xa129ca61#32, 0x49be45e5#32) := by decide +kernel

/-- Rule R77: 65 is the smallest failing length; the digest is kept, cause 1 is recorded. -/
theorem test_khash_too_long : (after .khash { testRegs with mlen := 65, dLo := 7 }).map (fun r => (r.statusWord, r.dLo)) =
    some (0x3#32, 7#32) := by decide +kernel

/-- V5.2 and V5.3. -/
theorem test_scaleM : (after .scaleM { testRegs with h := #v[0xffffffff#32, 1#32, 2#32, 3#32], tickLo := 0x40 }).map
      (·.seq) = some 0#32 ∧
    (after .scaleM { testRegs with h := #v[0xffffffff#32, 1#32, 2#32, 3#32], tickLo := 0x3f }).map
      (·.seq) = some 0xffffffff#32 := by decide

/-- V5.4 and V5.6. -/
theorem test_scaleS : (after .scaleS { testRegs with dLo := 0x80000000, tickHi := 0x20 }).map (·.seq) = some 0#32 ∧
    (after .scaleS { testRegs with dLo := 0x12345678, tickHi := 0x40 }).map (·.seq) = some 0x12345678#32 := by decide

/-- V6.2f. -/
theorem test_deriveM : (after .deriveM { testRegs with tickHi := 0x12345678, tickLo := 0x9abcdef0 }).map
      (fun r => (r.h.toList, r.seq)) =
    some ([0x7360936a#32, 0xbed50b33#32, 0x75437e3f#32, 0x9436b58b#32], 0x55cb86e5#32) := by decide +kernel

/-- V6.6: from reset. -/
theorem test_deriveM_reset : (after .deriveM Regs.reset).map (·.seq) = some 0xF7CD1C97#32 := by decide +kernel

/-- V6.2f, with a stale illegal `MLEN`. -/
theorem test_deriveS : (after .deriveS { testRegs with tickHi := 0x12345678, tickLo := 0x9abcdef0, mlen := 100 }).map
      (fun r => (r.dHi, r.dLo, r.seq, r.statusWord)) =
    some (0x3edf1120#32, 0x9eef9f55#32, 0x815a92d0#32, 0#32) := by decide +kernel

/-- V6.6: from reset. -/
theorem test_deriveS_reset : (after .deriveS Regs.reset).map (·.seq) = some 0x80172976#32 := by decide +kernel

/-- V3.26. -/
theorem test_sipRound : sipRound ⟨1#64, 2#64, 3#64, 4#64⟩ =
    ⟨0x0000000300040007#64, 0x000000008006400a#64, 0x0000400a00000000#64, 0x0000008300e40007#64⟩ := by decide +kernel

/-- `g` and `s` as rule R65 prints them in full. -/
theorem test_schedule : (List.range 64).map (fun i => (blockIndex i).val) =
    [0, 1, 2, 3, 4, 5, 6, 7, 8, 9, 10, 11, 12, 13, 14, 15, 1, 6, 11, 0, 5, 10, 15, 4, 9, 14, 3, 8, 13, 2, 7, 12,
     5, 8, 11, 14, 1, 4, 7, 10, 13, 0, 3, 6, 9, 12, 15, 2, 0, 7, 14, 5, 12, 3, 10, 1, 8, 15, 6, 13, 4, 11, 2, 9] ∧
    (List.range 8).map (fun i => rotationAmount (i + 12)) = [7, 12, 17, 22, 5, 9, 14, 20] ∧
    (List.range 8).map (fun i => rotationAmount (i + 44)) = [4, 11, 16, 23, 6, 10, 15, 21] := by decide +kernel

/-- Rule R115 and rule R118: the second report is dropped by `STATUS` and kept by the model's record. -/
theorem test_illegal_command :
    run 2 (asking [.regWrite 0#6 0x100#32, .regWrite 0#6 0x10#32]) = .next { State.reset with
      regs := { Regs.reset with err := 1, cause := 2 }
      reports := [.illegalCommand 0x10#32, .illegalCommand 0x100#32] } := by rfl

/-- Rule R110: `wr STATUS, 6` changes nothing, `wr STATUS, 1` clears. -/
theorem test_status_clear :
    (stepped { asking [.regWrite 1#6 6#32] with regs := { Regs.reset with err := 1, cause := 1 } }).map
      (·.statusWord) = some 3#32 ∧
    (stepped { asking [.regWrite 1#6 1#32] with regs := { Regs.reset with err := 1, cause := 1 } }).map
      (·.statusWord) = some 0#32 := by decide +kernel

/-- Rules R33 and R36: a 16-bit register at byte offset 0x10 keeps the low half. -/
theorem test_narrow_write : (stepped (asking [.memWrite 0x10#8 4 0xABCD1234#32])).map (·.sport) = some 0x1234#16 ∧
    step (asking [.memRead 0x12#8 4]) = .refused (.misalignedAccess 0x12#8) ∧
    step (asking [.memRead 0x10#8 2]) = .refused (.accessWidth 2) := ⟨rfl, rfl, rfl⟩

/-- The host's own question: a table word placed at reset is decoded and run. -/
theorem test_withFetchWord : step (State.reset.withFetchWord 32 0x14) = exec .deriveS State.reset := by rfl

/-! ### Witnesses: a concrete state and operands that meet the hypotheses of each statement, at the edges of its
clauses -/

theorem witness_ResetEventZeroesEveryRegister : (asking [.reset]).inputs = .reset :: [] := rfl

theorem witness_StepRunsTheDecodedCommand :
    (asking [.regWrite 0#6 0x14#32]).inputs = .regWrite 0#6 0x14#32 :: [] ∧ decode 0x14#32 = .ok .deriveS ∧
      Instr.deriveS.wf = true := by decide

/-- Both branches, `ERR` clear and `ERR` set, with words next to the legal ones. -/
theorem witness_IllegalWordReportsIllegalCommand :
    (asking [.regWrite 0#6 0x10#32]).inputs = .regWrite 0#6 0x10#32 :: [] ∧
    (∀ w ∈ [0x10#32, 0x05#32, 0x15#32, 0xFFFFFFFF#32],
      w ∉ [0x00000000#32, 0x00000001#32, 0x00000011#32, 0x00000002#32, 0x00000012#32, 0x00000003#32, 0x00000013#32,
        0x00000004#32, 0x00000014#32]) ∧
    (asking [.regWrite 0#6 0x10#32]).regs.err = 0#1 ∧
    ({ asking [.regWrite 0#6 0x10#32] with regs := { Regs.reset with err := 1, cause := 2 } } : State).regs.err = 1#1 :=
  ⟨rfl, by simp, rfl, rfl⟩

theorem witness_PackMPlacesRawWords : ∃ t, exec .packM (stateOf testRegs) = .next t := ⟨_, rfl⟩

theorem witness_PackSByteLayout : ∃ t, exec .packS (stateOf testRegs) = .next t := ⟨_, rfl⟩

/-- Both alternatives of the hypothesis, with secrets that differ elsewhere. -/
theorem witness_PackersAreInjectiveInTheTuple :
    (∃ t t', exec .packM (stateOf testRegs) = .next t ∧ exec .packM (stateOf { testRegs with mlen := 3 }) = .next t' ∧
      t.regs.h = t'.regs.h) ∧
    (∃ t t', exec .packS (stateOf testRegs) = .next t ∧ exec .packS (stateOf { testRegs with mlen := 3 }) = .next t' ∧
      t.regs.messageBytes.take 16 = t'.regs.messageBytes.take 16) :=
  ⟨⟨_, _, rfl, rfl, rfl⟩, ⟨_, _, rfl, rfl, rfl⟩⟩

/-- The first and the last step of each round. -/
theorem witness_CompressStepByRound : ∀ i ∈ [0, 15, 16, 31, 32, 47, 48, 63], i < 64 := by decide

/-- The empty message, one below a whole word, a whole word and the longest message. -/
theorem witness_KhashHashesTheMessageRegisters : ∀ n ∈ [0#7, 7#7, 8#7, 64#7],
    (stateOf { testRegs with mlen := n }).regs.mlen.toNat ≤ 64 := by decide

theorem witness_InvalidLengthOnlyFromKhash :
    64 < (stateOf { testRegs with mlen := 65 }).regs.mlen.toNat ∧
    64 < (stateOf { testRegs with mlen := 127 }).regs.mlen.toNat ∧
    (Instr.deriveS ≠ .khash ∨ (stateOf { testRegs with mlen := 65 }).regs.mlen.toNat ≤ 64) ∧
    (Instr.khash ≠ .khash ∨ (stateOf { testRegs with mlen := 64 }).regs.mlen.toNat ≤ 64) ∧
    (asking [.regWrite 8#6 0xFF#32]).inputs = .regWrite 8#6 0xFF#32 :: [] := by decide

/-- Messages of 15 bytes whose byte 15 differs. -/
theorem witness_KhashIgnoresBytesBeyondLength :
    let s := stateOf { testRegs with mlen := 15 }
    let s' := stateOf { testRegs with mlen := 15, msg := testRegs.msg.set 3 0xff000000#32 }
    s.regs.mlen = s'.regs.mlen ∧ s.regs.mlen.toNat ≤ 64 ∧
    (∀ k : Fin 4, s.regs.secret[k.val] = s'.regs.secret[k.val]) ∧
    (∀ k, k < s.regs.mlen.toNat → s.regs.messageBytes.getD k 0#8 = s'.regs.messageBytes.getD k 0#8) ∧
    s.regs.messageBytes ≠ s'.regs.messageBytes ∧ (∃ t, exec .khash s = .next t) ∧ ∃ t', exec .khash s' = .next t' := by
  refine ⟨rfl, by decide, fun _ => rfl, by decide, by decide, ⟨_, rfl⟩, ⟨_, rfl⟩⟩

theorem witness_OnlyTickBits37To6Count :
    (0xFFFFFFC00000003F#64).extractLsb' 6 32 = (0#64).extractLsb' 6 32 := by decide

/-- Both branches: the counter-example of rule R99 has a carry, a multiple of 64 has none. -/
theorem witness_DriftLawWithCarry : (63#64).toNat + (1#64).toNat < 2 ^ 64 ∧
    64 ≤ (63#64).toNat % 64 + (1#64).toNat % 64 ∧
    (0xFFFFFFFFFFFFFFBF#64).toNat + (64#64).toNat < 2 ^ 64 ∧
    ¬ 64 ≤ (0xFFFFFFFFFFFFFFBF#64).toNat % 64 + (64#64).toNat % 64 := by decide

theorem witness_ZeroTickGivesTheBase : (stateOf testRegs).regs.tickHi = 0#32 ∧ (stateOf testRegs).regs.tickLo = 0#32 := by
  decide

theorem witness_BoundedAdvanceLooksLater : (63#64).toNat + (BitVec.ofNat 64 (2 ^ 37 - 64)).toNat < 2 ^ 64 ∧
    (BitVec.ofNat 64 (2 ^ 37 - 64)).toNat ≤ 2 ^ 37 - 64 := by decide

theorem witness_DerivationsNeverReport : (Instr.deriveM = .deriveM ∨ Instr.deriveM = .deriveS) ∧
    (Instr.deriveS = .deriveM ∨ Instr.deriveS = .deriveS) := by decide

/-- Two states that differ in `MLEN`, `SEQ`, `H`, `D`, `MSG` and `STATUS`, under both commands. -/
theorem witness_DerivationDependsOnInputsOnly : ∀ i ∈ [Instr.deriveM, .deriveS],
    let s := stateOf testRegs
    let s' := stateOf { testRegs with
      mlen := 127, seq := 9, dLo := 1, dHi := 2, h := #v[1#32, 2#32, 3#32, 4#32], msg := testSecretWords, err := 1,
      cause := 2 }
    (i = .deriveM ∨ i = .deriveS) ∧ s.regs.saddr = s'.regs.saddr ∧ s.regs.daddr = s'.regs.daddr ∧
    s.regs.sport = s'.regs.sport ∧ s.regs.dport = s'.regs.dport ∧ s.regs.secret = s'.regs.secret ∧
    s.regs.tickLo = s'.regs.tickLo ∧ s.regs.tickHi = s'.regs.tickHi ∧ (∃ t, exec i s = .next t) ∧
    ∃ t', exec i s' = .next t' := by
  intro i hi
  simp only [List.mem_cons, List.not_mem_nil, or_false] at hi
  rcases hi with rfl | rfl
  · exact ⟨.inl rfl, rfl, rfl, rfl, rfl, rfl, rfl, rfl, ⟨_, rfl⟩, ⟨_, rfl⟩⟩
  · exact ⟨.inr rfl, rfl, rfl, rfl, rfl, rfl, rfl, rfl, ⟨_, rfl⟩, ⟨_, rfl⟩⟩

theorem witness_UnlistedRegistersAreUnchanged : (∃ t, exec .deriveS (stateOf testRegs) = .next t) ∧
    Reg.h 0 ∉ writeSet .deriveS ∧ Reg.msg 4 ∉ writeSet .deriveS ∧ Reg.status ∉ writeSet .deriveS :=
  ⟨⟨_, rfl⟩, by decide, by decide, by decide⟩

/-- Two states that differ in `SEQ` and `S[4]`, which `KHASH` does not list as read. -/
theorem witness_ResultsDependOnListedRegisters :
    let s := stateOf { testRegs with mlen := 64 }
    let s' := stateOf { testRegs with mlen := 64, seq := 9, secret := testRegs.secret.set 4 0#32 }
    (∀ reg ∈ readSet .khash, readReg reg s.regs = readReg reg s'.regs) ∧
    (Instr.khash = .khash → s.regs.mlen.toNat ≤ 64) ∧ (∃ t, exec .khash s = .next t) ∧
    (∃ t', exec .khash s' = .next t') ∧ Reg.dLo ∈ writeSet .khash ∧ Reg.dLo ≠ .status :=
  ⟨by decide, by decide, ⟨_, rfl⟩, ⟨_, rfl⟩, by decide, by decide⟩

/-- A register changed by reset, by a host write (indices 2 and 47), by a command and by an illegal word. -/
theorem witness_RegisterKeepsItsValue :
    (∃ t, step { asking [.reset] with regs := testRegs } = .next t ∧
      readReg .saddr t.regs ≠ readReg .saddr testRegs) ∧
    (∃ t, step (asking [.regWrite 2#6 5#32]) = .next t ∧ readReg .saddr t.regs ≠ readReg .saddr Regs.reset) ∧
    (∃ t, step (asking [.regWrite 47#6 5#32]) = .next t ∧ readReg (.msg 15) t.regs ≠ readReg (.msg 15) Regs.reset) ∧
    (∃ t, step { asking [.regWrite 0#6 1#32] with regs := testRegs } = .next t ∧
      readReg (.h 0) t.regs ≠ readReg (.h 0) testRegs) ∧
    (∃ t, step (asking [.regWrite 0#6 5#32]) = .next t ∧ readReg .status t.regs ≠ readReg .status Regs.reset) :=
  ⟨⟨_, rfl, by decide⟩, ⟨_, rfl, by decide⟩, ⟨_, rfl, by decide⟩, ⟨_, rfl, by decide⟩, ⟨_, rfl, by decide⟩⟩

/-- The secret changed by reset and by a host write (`S[0]` and `S[15]`), and read back. -/
theorem witness_SecretChangesOnlyByHostOrReset :
    (∃ t, exec .compress (stateOf testRegs) = .next t) ∧
    (∃ t, step { asking [.reset] with regs := testRegs } = .next t ∧ t.regs.secret ≠ testRegs.secret) ∧
    (∃ t, step (asking [.regWrite 16#6 1#32]) = .next t ∧ t.regs.secret ≠ Regs.reset.secret) ∧
    (∃ t, step (asking [.regWrite 31#6 1#32]) = .next t ∧ t.regs.secret ≠ Regs.reset.secret) ∧
    (asking [.regRead 31#6]).inputs = .regRead (indexOfReg (.s 15)) :: [] :=
  ⟨⟨_, rfl⟩, ⟨_, rfl, by decide⟩, ⟨_, rfl, by decide⟩, ⟨_, rfl, by decide⟩, rfl⟩

/-- `SEQ` changed by reset and by `SCALE.S`; a host write to it; a command outside the four and one of them, each with
two values of it. -/
theorem witness_SeqIsAResultLatch :
    (∃ t, step { asking [.reset] with regs := { testRegs with seq := 5 } } = .next t ∧ t.regs.seq ≠ 5#32) ∧
    (∃ t, step { asking [.regWrite 0#6 0x13#32] with regs := { testRegs with dLo := 5 } } = .next t ∧
      t.regs.seq ≠ testRegs.seq) ∧
    (asking [.regWrite 9#6 5#32]).inputs = .regWrite 9#6 5#32 :: [] ∧
    (∃ t t', exec .packS (stateOf testRegs) = .next t ∧
      exec .packS { stateOf testRegs with regs := { testRegs with seq := 5 } } = .next t') ∧
    Instr.packS ∉ [Instr.scaleM, .scaleS, .deriveM, .deriveS] ∧
    (∃ t t', exec .deriveS (stateOf testRegs) = .next t ∧
      exec .deriveS { stateOf testRegs with regs := { testRegs with seq := 5 } } = .next t') ∧
    Instr.deriveS ∈ [Instr.scaleM, .scaleS, .deriveM, .deriveS] :=
  ⟨⟨_, rfl, by decide⟩, ⟨_, rfl, by decide⟩, rfl, ⟨_, _, rfl, rfl⟩, by decide, ⟨_, _, rfl, rfl⟩, by decide⟩

theorem witness_EveryCommandButCompressIsIdempotent : ∃ t u, Instr.packS ≠ .compress ∧
    exec .packS (stateOf testRegs) = .next t ∧ exec .packS t = .next u := ⟨_, _, by decide, rfl, rfl⟩

theorem witness_ReportRecordsTheFirstCause : (stateOf testRegs).regs.err = 0#1 ∧
    (stateOf { testRegs with err := 1, cause := 1 }).regs.err = 1#1 := by decide

/-- A word with bit 0 alone, and one with every bit but that. -/
theorem witness_StatusClearsByWritingOne :
    (asking [.regWrite 1#6 1#32]).inputs = .regWrite 1#6 1#32 :: [] ∧ (1#32).getLsbD 0 = true ∧
    (asking [.regWrite 1#6 0xFFFFFFFE#32]).inputs = .regWrite 1#6 0xFFFFFFFE#32 :: [] ∧
    (0xFFFFFFFE#32).getLsbD 0 = false := by decide

/-- Both alternatives of the invariant, each before a step. -/
theorem witness_StatusInvariantKeptByEveryStep :
    (StatusInv (asking [.regWrite 0#6 5#32]) ∧ ∃ t, step (asking [.regWrite 0#6 5#32]) = .next t) ∧
    ∃ s : State, s.regs.err = 1#1 ∧ StatusInv s ∧ ∃ t, step s = .next t :=
  ⟨⟨.inl ⟨rfl, rfl⟩, _, rfl⟩,
    ⟨{ asking [.regWrite 0#6 5#32] with
        regs := { Regs.reset with err := 1, cause := 1 }, reports := [.invalidLength 65#7] },
      rfl, .inr ⟨rfl, .invalidLength 65#7, by simp, rfl⟩, _, rfl⟩⟩

theorem witness_StatusReadsOneOfThreeValues : (StatusInv State.reset ∧ Clean State.reset) ∧
    StatusInv { State.reset with
      regs := { Regs.reset with err := 1, cause := 2 }, reports := [.illegalCommand 5#32] } :=
  ⟨⟨.inl ⟨rfl, rfl⟩, rfl⟩, .inr ⟨rfl, .illegalCommand 5#32, by simp, rfl⟩⟩

/-- A step from a state with `ERR` set, and one from a state with `ERR` clear. -/
theorem witness_OneAccessRaisesAtMostOneError :
    (∃ t, step { asking [.regWrite 0#6 5#32] with regs := { Regs.reset with err := 1, cause := 1 } } = .next t ∧
      ({ Regs.reset with err := 1, cause := 1 } : Regs).err = 1#1) ∧
    ∃ t, step { asking [.regWrite 0#6 0x12#32] with regs := { Regs.reset with mlen := 65 } } = .next t :=
  ⟨⟨_, rfl, rfl⟩, ⟨_, rfl⟩⟩

theorem witness_RegReadReturnsTheRegister : ∀ i ∈ [0#6, 1#6, 2#6, 47#6, 48#6, 63#6],
    (asking [.regRead i]).inputs = .regRead i :: [] := by decide

/-- An index of every clause, at its edges. -/
theorem witness_RegWriteStoresTheStoredBits :
    ∀ i ∈ [0#6, 1#6, 2#6, 3#6, 4#6, 5#6, 6#6, 7#6, 8#6, 9#6, 10#6, 47#6, 48#6, 63#6],
      (asking [.regWrite i 0xFFFFFFFF#32]).inputs = .regWrite i 0xFFFFFFFF#32 :: [] := by decide

/-- The first and last read-write registers, and those of each narrower width. -/
theorem witness_ReadReturnsTheLatestWrite : ∀ reg ∈ [Reg.saddr, .sport, .mlen, .dHi, .h 0, .s 15, .msg 15],
    hostAccess reg = .readWrite := by decide

/-- Both clauses: the lowest and highest aligned offsets; an offset and a width next to them. -/
theorem witness_OnlyAlignedWordAccessesAreDefined :
    (4 = 4 ∧ (0#8).toNat % 4 = 0) ∧ (4 = 4 ∧ (252#8).toNat % 4 = 0) ∧ ¬(4 = 4 ∧ (1#8).toNat % 4 = 0) ∧
    ¬(4 = 4 ∧ (255#8).toNat % 4 = 0) ∧ ¬(2 = 4 ∧ (0#8).toNat % 4 = 0) := by decide

theorem witness_EveryDefinedAccessCompletes : State.reset.inputs = [] := rfl

theorem witness_EveryFiniteProgramEnds : ∀ e ∈ (asking (asmTuple 1#32 2#32 3#32 4#32 ++ asmCmd .deriveM ++
    asmRd .seq ++ asmReset)).inputs, e.wf = true := by decide

/-- One event left, and two of which the second is at the last aligned offset. -/
theorem witness_EveryStepTakesOneEvent :
    ((asking [.reset]).inputs ≠ [] ∧ ∀ e ∈ (asking [.reset]).inputs, e.wf = true) ∧
    (asking [.regWrite 0#6 5#32, .memRead 252#8 4]).inputs ≠ [] ∧
    ∀ e ∈ (asking [.regWrite 0#6 5#32, .memRead 252#8 4]).inputs, e.wf = true := by decide

end Sys2Proof.Tests
end

/-!
The statements about the state of the block (spec/10_state.md), in layers: the host's register map and one
rule per register store; what each command leaves unchanged (`readReg_result`), what its results depend on
(`readReg_result_congr`) and that `SEQ` is never one of its operands; what a step can do (`step_effect`);
then the obligations, each a short use of these.
-/

namespace Sys2Proof.Machine

/-! ### The host's view of one register store

A host reads the same from every register but the one stored. -/

section
variable (r : Regs) {reg : Reg}

theorem readReg_setStatus (e : BitVec 1) (c : BitVec 2) (h : reg ≠ .status) :
    readReg reg (r.setStatus e c) = readReg reg r := by
  cases reg with
  | status => exact absurd rfl h
  | _ => rfl

theorem readReg_setSaddr (v : Word) (h : reg ≠ .saddr) : readReg reg (r.setSaddr v) = readReg reg r := by
  cases reg with
  | saddr => exact absurd rfl h
  | _ => rfl

theorem readReg_setDaddr (v : Word) (h : reg ≠ .daddr) : readReg reg (r.setDaddr v) = readReg reg r := by
  cases reg with
  | daddr => exact absurd rfl h
  | _ => rfl

theorem readReg_setSport (v : Half) (h : reg ≠ .sport) : readReg reg (r.setSport v) = readReg reg r := by
  cases reg with
  | sport => exact absurd rfl h
  | _ => rfl

theorem readReg_setDport (v : Half) (h : reg ≠ .dport) : readReg reg (r.setDport v) = readReg reg r := by
  cases reg with
  | dport => exact absurd rfl h
  | _ => rfl

theorem readReg_setTickLo (v : Word) (h : reg ≠ .tickLo) : readReg reg (r.setTickLo v) = readReg reg r := by
  cases reg with
  | tickLo => exact absurd rfl h
  | _ => rfl

theorem readReg_setTickHi (v : Word) (h : reg ≠ .tickHi) : readReg reg (r.setTickHi v) = readReg reg r := by
  cases reg with
  | tickHi => exact absurd rfl h
  | _ => rfl

theorem readReg_setMlen (v : BitVec 7) (h : reg ≠ .mlen) : readReg reg (r.setMlen v) = readReg reg r := by
  cases reg with
  | mlen => exact absurd rfl h
  | _ => rfl

theorem readReg_setSeq (v : Word) (h : reg ≠ .seq) : readReg reg (r.setSeq v) = readReg reg r := by
  cases reg with
  | seq => exact absurd rfl h
  | _ => rfl

theorem readReg_setDLo (v : Word) (h : reg ≠ .dLo) : readReg reg (r.setDLo v) = readReg reg r := by
  cases reg with
  | dLo => exact absurd rfl h
  | _ => rfl

theorem readReg_setDHi (v : Word) (h : reg ≠ .dHi) : readReg reg (r.setDHi v) = readReg reg r := by
  cases reg with
  | dHi => exact absurd rfl h
  | _ => rfl

/-- Storing `H` changes no register that keeps its word; with `reg` no `H[k]` the premise is empty. -/
theorem readReg_setH (v : Vector Word 4) (h : ∀ k : Fin 4, reg = .h k → v[k] = r.h[k]) :
    readReg reg (r.setH v) = readReg reg r := by
  cases reg with
  | h k => exact h k rfl
  | _ => rfl

/-- The same for the secret. -/
theorem readReg_setSecret (v : Vector Word 16) (h : ∀ k : Fin 16, reg = .s k → v[k] = r.secret[k]) :
    readReg reg (r.setSecret v) = readReg reg r := by
  cases reg with
  | s k => exact h k rfl
  | _ => rfl

/-- The same for the message. -/
theorem readReg_setMsg (v : Vector Word 16) (h : ∀ k : Fin 16, reg = .msg k → v[k] = r.msg[k]) :
    readReg reg (r.setMsg v) = readReg reg r := by
  cases reg with
  | msg k => exact h k rfl
  | _ => rfl

end

/-! ### The host's write to one register (rule R38) -/

section
variable (r : Regs) (w : Word)

/-- One word of a group stored: another index of the group keeps its word. -/
theorem getElem_set_of_ne {n : Nat} (v : Vector Word n) {j k : Fin n} (h : j ≠ k) : (v.set k w)[j] = v[j] :=
  Vector.getElem_set_ne _ _ fun he => h (Fin.ext he.symm)

/-- A host write to one register leaves what the host reads from every other one. -/
theorem readReg_writeReg_of_ne {reg stored : Reg} (h : reg ≠ stored) :
    readReg reg (writeReg stored w r) = readReg reg r := by
  cases stored with
  | cmd => rfl
  | seq => rfl
  | status =>
    simp only [writeReg]
    split
    · exact readReg_setStatus r _ _ h
    · rfl
  | saddr => exact readReg_setSaddr r _ h
  | daddr => exact readReg_setDaddr r _ h
  | sport => exact readReg_setSport r _ h
  | dport => exact readReg_setDport r _ h
  | tickLo => exact readReg_setTickLo r _ h
  | tickHi => exact readReg_setTickHi r _ h
  | mlen => exact readReg_setMlen r _ h
  | dLo => exact readReg_setDLo r _ h
  | dHi => exact readReg_setDHi r _ h
  | h k => exact readReg_setH r _ fun j hj => getElem_set_of_ne w _ fun he => h (by rw [hj, he])
  | s k => exact readReg_setSecret r _ fun j hj => getElem_set_of_ne w _ fun he => h (by rw [hj, he])
  | msg k => exact readReg_setMsg r _ fun j hj => getElem_set_of_ne w _ fun he => h (by rw [hj, he])

/-- The low `n` bits of a word, read back zero-extended (rule R33). -/
theorem setWidth_extractLsb'_eq_ofNat_mod (n : Nat) :
    BitVec.setWidth 32 (w.extractLsb' 0 n) = BitVec.ofNat 32 (w.toNat % 2 ^ n) := by
  apply BitVec.eq_of_toNat_eq
  simp

/-- A read-write register keeps the low bits of the word the host wrote to it (rules R33 and R38). -/
theorem readReg_writeReg_self {reg : Reg} (h : hostAccess reg = .readWrite) :
    readReg reg (writeReg reg w r) = BitVec.ofNat 32 (w.toNat % 2 ^ storedBits reg) := by
  have whole : w = BitVec.ofNat 32 (w.toNat % 2 ^ 32) := by
    rw [Nat.mod_eq_of_lt w.isLt, BitVec.ofNat_toNat, BitVec.setWidth_eq]
  cases reg with
  | cmd => cases h
  | status => cases h
  | seq => cases h
  | sport => exact setWidth_extractLsb'_eq_ofNat_mod w 16
  | dport => exact setWidth_extractLsb'_eq_ofNat_mod w 16
  | mlen => exact setWidth_extractLsb'_eq_ofNat_mod w 7
  | h k => exact (Vector.getElem_set_self _).trans whole
  | s k => exact (Vector.getElem_set_self _).trans whole
  | msg k => exact (Vector.getElem_set_self _).trans whole
  | _ => exact whole

/-- Only a write to `STATUS` reaches its fields. -/
theorem writeReg_status_fields {reg : Reg} (h : reg ≠ .status) :
    (writeReg reg w r).err = r.err ∧ (writeReg reg w r).cause = r.cause := by
  cases reg with
  | status => exact absurd rfl h
  | _ => exact ⟨rfl, rfl⟩

/-- No host write reaches `SEQ` (rule R22). -/
theorem writeReg_seq (reg : Reg) : (writeReg reg w r).seq = r.seq := by
  cases reg with
  | status => simp only [writeReg]; split <;> rfl
  | _ => rfl

/-- A host write reaches the secret only as one word `S[k]` (rule R17). -/
theorem writeReg_secret (reg : Reg) :
    (∃ k, reg = .s k ∧ (writeReg reg w r).secret = r.secret.set k w) ∨ (writeReg reg w r).secret = r.secret := by
  cases reg with
  | s k => exact .inl ⟨k, rfl, rfl⟩
  | status => simp only [writeReg]; split <;> exact .inr rfl
  | _ => exact .inr rfl

end

/-! ### Register accesses at an index of the map -/

section
variable (s : State) (w : Word)

/-- A read at the index of a register returns that register (rule R37). -/
@[simp] theorem regRead_indexOfReg (reg : Reg) :
    regRead (indexOfReg reg) s = s.pushRead (readReg reg s.regs) := by
  simp [regRead, regReadValue]

/-- A write at the index of a register other than `CMD` stores there (rule R38). -/
theorem regWrite_indexOfReg {reg : Reg} (h : reg ≠ .cmd) :
    regWrite (indexOfReg reg) w s = .next (s.withRegs (writeReg reg w s.regs)) := by
  unfold regWrite
  rw [regOfIndex_indexOfReg]
  cases reg with
  | cmd => exact absurd rfl h
  | _ => rfl

/-- The step at a host write to a register other than `CMD`. -/
theorem step_asmWr {s : State} {rest : List HostEvent} {reg : Reg} {w : Word} (h : reg ≠ .cmd)
    (hin : s.inputs = asmWr reg w ++ rest) :
    step s = .next ((s.withInputs rest).withRegs (writeReg reg w s.regs)) :=
  (step_of_inputs hin rfl).trans (regWrite_indexOfReg _ w h)

/-- The step at a host read of a register. -/
theorem step_asmRd {s : State} {rest : List HostEvent} {reg : Reg} (hin : s.inputs = asmRd reg ++ rest) :
    step s = .next ((s.withInputs rest).pushRead (readReg reg s.regs)) :=
  (step_of_inputs hin rfl).trans (congrArg _ (regRead_indexOfReg _ reg))

/-- A legal command word runs its command (rule R63). -/
theorem execute_of_decode {i : Instr} (h : decode w = .ok i) : execute w s = exec i s := by
  rw [execute, h]

/-- Every one of the 48 mapped indices reads zero after reset (rule R29). -/
theorem registerFile_reset : registerFile Regs.reset = List.replicate 48 0#32 := by decide

/-- The word of every command encodes and decodes as rules R57 and R63 say. -/
theorem encodeDecode_statement (i : Instr) : Laws.EncodeDecode.Statement i := by
  cases i with
  | nop => exact Laws.EncodeDecode.nop
  | packM => exact Laws.EncodeDecode.packM
  | packS => exact Laws.EncodeDecode.packS
  | compress => exact Laws.EncodeDecode.compress
  | khash => exact Laws.EncodeDecode.khash
  | scaleM => exact Laws.EncodeDecode.scaleM
  | scaleS => exact Laws.EncodeDecode.scaleS
  | deriveM => exact Laws.EncodeDecode.deriveM
  | deriveS => exact Laws.EncodeDecode.deriveS

/-- The command word of every command decodes to it (rule R57). -/
theorem decode_encode (i : Instr) : decode (encode i) = .ok i := (encodeDecode_statement i).1

/-- The table's 32-bit word of a command is delivered as that command's word (rule R43). -/
theorem commandEvent_encode (i : Instr) : commandEvent 32 (encode i).toNat = .regWrite 0#6 (encode i) := by
  rw [commandEvent, Nat.mod_eq_of_lt (encode i).isLt, BitVec.ofNat_toNat, BitVec.setWidth_eq]

theorem decodeTableWord_encode (i : Instr) : decodeTableWord 32 (encode i).toNat = some i := by
  simp [decodeTableWord, Nat.mod_eq_of_lt (encode i).isLt, (encode i).isLt, decode_encode]

end

/-! ### What a command leaves unchanged (rule R26, the column "writes") -/

section
variable (r : Regs) {reg : Reg}

theorem h_mem_hRegs (k : Fin 4) : Reg.h k ∈ hRegs := by revert k; decide

theorem s_mem_secretRegs (k : Fin 16) : Reg.s k ∈ secretRegs := List.mem_map_of_mem (List.mem_finRange k)

theorem msg_mem_msgRegs (k : Fin 16) : Reg.msg k ∈ msgRegs := List.mem_map_of_mem (List.mem_finRange k)

/-- `PACK.S` stores only the first four message registers. -/
theorem getElem_storePacked_of_le (bytes : List Byte) (m : Vector Word 16) {k : Fin 16} (h : 4 ≤ k.val) :
    (storePacked bytes m)[k] = m[k] := by
  simp (disch := omega) only [storePacked, Fin.getElem_fin, Vector.getElem_set_ne]

theorem readReg_packM (h : reg ∉ hRegs) : readReg reg (packM r) = readReg reg r :=
  readReg_setH r _ fun k hk => absurd (hk ▸ h_mem_hRegs k) h

theorem readReg_compressH (h : reg ∉ hRegs) : readReg reg (compressH r) = readReg reg r :=
  readReg_setH r _ fun k hk => absurd (hk ▸ h_mem_hRegs k) h

theorem readReg_scaleM (h : reg ≠ .seq) : readReg reg (scaleM r) = readReg reg r := readReg_setSeq r _ h

theorem readReg_scaleS (h : reg ≠ .seq) : readReg reg (scaleS r) = readReg reg r := readReg_setSeq r _ h

theorem readReg_storeDigest (d : DWord) (hlo : reg ≠ .dLo) (hhi : reg ≠ .dHi) :
    readReg reg (storeDigest d r) = readReg reg r :=
  (readReg_setDHi _ _ hhi).trans (readReg_setDLo r _ hlo)

theorem readReg_packS (h : reg ∉ [.msg 0, .msg 1, .msg 2, .msg 3, .mlen]) :
    readReg reg (packS r) = readReg reg r := by
  have hmlen : reg ≠ .mlen := fun he => h (by simp [he])
  refine (readReg_setMlen _ _ hmlen).trans (readReg_setMsg r _ fun k hk => getElem_storePacked_of_le _ _ ?_)
  have outside : ∀ k : Fin 16, Reg.msg k ∉ [Reg.msg 0, .msg 1, .msg 2, .msg 3, .mlen] → 4 ≤ k.val := by decide
  exact outside k (hk ▸ h)

/-- A register outside a command's write set reads after it as before. -/
theorem readReg_result {i : Instr} (s : State) (h : reg ∉ writeSet i) :
    readReg reg (result i s).regs = readReg reg s.regs := by
  cases i with
  | nop => rfl
  | packM => exact readReg_packM _ h
  | packS => exact readReg_packS _ h
  | compress => exact readReg_compressH _ h
  | khash =>
    simp only [writeSet, List.mem_cons, List.not_mem_nil, or_false, not_or] at h
    obtain ⟨hlo, hhi, hstatus⟩ := h
    rcases khash_cases s with ⟨-, hk⟩ | ⟨-, hk⟩
    · rw [result, hk, readReg_raise _ _ hstatus]
    · rw [result, hk, State.withRegs_regs, readReg_storeDigest _ _ hlo hhi]
  | scaleM => exact readReg_scaleM _ fun he => h (by simp [writeSet, he])
  | scaleS => exact readReg_scaleS _ fun he => h (by simp [writeSet, he])
  | deriveM =>
    simp only [writeSet, List.mem_append, List.mem_singleton, not_or] at h
    obtain ⟨hh, hseq⟩ := h
    rw [result, deriveM, State.withRegs_regs, readReg_scaleM _ hseq, readReg_compressH _ hh, readReg_packM _ hh]
  | deriveS =>
    have hpack : reg ∉ [.msg 0, .msg 1, .msg 2, .msg 3, .mlen] := fun hm => h (by simp_all [writeSet])
    have hlo : reg ≠ .dLo := fun he => h (by simp [writeSet, he])
    have hhi : reg ≠ .dHi := fun he => h (by simp [writeSet, he])
    have hseq : reg ≠ .seq := fun he => h (by simp [writeSet, he])
    rw [result, deriveS_eq, State.withRegs_regs, readReg_scaleS _ hseq, readReg_storeDigest _ _ hlo hhi,
      readReg_packS _ hpack]

/-- No command lists a word of the secret. -/
theorem s_not_mem_writeSet (i : Instr) (k : Fin 16) : Reg.s k ∉ writeSet i := by
  cases i <;> simp [writeSet, hRegs]

/-- No command writes the secret (rule R17). -/
theorem result_secret (i : Instr) (s : State) : (result i s).regs.secret = s.regs.secret :=
  Vector.ext fun k hk => readReg_result s (s_not_mem_writeSet i ⟨k, hk⟩)

/-- The commands that write `SEQ` (rule R22). -/
theorem seq_mem_writeSet_iff (i : Instr) :
    Reg.seq ∈ writeSet i ↔ i ∈ [Instr.scaleM, .scaleS, .deriveM, .deriveS] := by
  cases i <;> decide

/-- A command reports an illegal length, or leaves `STATUS` and the record of reports. -/
theorem result_status (i : Instr) (s : State) :
    (∃ e, result i s = raise e s) ∨ ((result i s).regs.err = s.regs.err ∧
      (result i s).regs.cause = s.regs.cause ∧ (result i s).reports = s.reports) := by
  cases i with
  | khash =>
    rcases khash_cases s with ⟨-, hk⟩ | ⟨-, hk⟩
    · exact .inl ⟨_, hk⟩
    · exact .inr (by simp [result, hk])
  | deriveS => exact .inr (by simp [result, deriveS_eq])
  | _ => exact .inr (by simp [result, deriveM])

end

/-! ### What a step can do (rules R31 and R32) -/

/-- Everything a step from `s` to `t` can have done to the registers and to the record of reports, with the event the
port delivered where one of them can have changed. -/
inductive StepEffect (s t : State) : Prop
  /-- no event, a read, or a write to an unmapped index -/
  | quiet (hregs : t.regs = s.regs) (hreports : t.reports = s.reports)
  /-- the reset event -/
  | reset (ask : Asks s .reset) (hregs : t.regs = Regs.reset) (hreports : t.reports = s.reports)
  /-- a host write to a register other than `CMD` -/
  | store (reg : Reg) (w : Word) (ask : Asks s (.write (indexOfReg reg) w))
      (hregs : t.regs = writeReg reg w s.regs) (hreports : t.reports = s.reports)
  /-- a write of a command word to `CMD` -/
  | command (w : Word) (i : Instr) (rest : List HostEvent) (ask : Asks s (.write 0#6 w)) (hdec : decode w = .ok i)
      (hnext : t = result i (s.withInputs rest))
  /-- a write to `CMD` of a word that encodes no command -/
  | illegal (w : Word) (rest : List HostEvent) (ask : Asks s (.write 0#6 w)) (hdec : ∀ i, decode w ≠ .ok i)
      (hnext : t = raise (.illegalCommand w) (s.withInputs rest))

theorem step_effect {s t : State} (h : step s = .next t) : StepEffect s t := by
  rcases step_cases h with ⟨-, rfl⟩ | ⟨e, rest, p, hin, hp, hperform⟩
  · exact .quiet rfl rfl
  have ask : Asks s p := ⟨e, rest, hin, hp⟩
  rcases perform_cases hperform with ⟨i, rfl, rfl⟩ | ⟨i, w, rfl, hwrite⟩ | ⟨rfl, rfl⟩
  · exact .quiet rfl rfl
  · rcases regWrite_cases hwrite with ⟨rfl, hexecute⟩ | ⟨reg, -, rfl, rfl⟩ | ⟨-, rfl⟩
    · rcases execute_cases hexecute with ⟨i, hdec, hexec⟩ | ⟨e, hdec, hraise⟩
      · exact .command w i rest ask hdec (exec_next hexec)
      · exact .illegal w rest ask (by simp [hdec]) hraise
    · exact .store reg w ask rfl rfl
    · exact .quiet rfl rfl
  · exact .reset ask rfl rfl

/-! ### The STATUS invariant (rules R24, R110 and R113) -/

/-- The invariant speaks of `STATUS` and the record of reports only. -/
theorem StatusInv.of_eq {s t : State} (hs : StatusInv s) (herr : t.regs.err = s.regs.err)
    (hcause : t.regs.cause = s.regs.cause) (hreports : t.reports = s.reports) : StatusInv t := by
  unfold StatusInv at hs ⊢
  rwa [herr, hcause, hreports]

/-- A report keeps the invariant: the first one owns `CAUSE`, a later one only lengthens the record. -/
theorem StatusInv.raise {s : State} (hs : StatusInv s) (e : Report) : StatusInv (raise e s) := by
  rcases raise_cases e s with ⟨-, hfirst⟩ | ⟨herr, hdropped⟩
  · rw [hfirst]
    exact .inr ⟨rfl, e, List.mem_cons_self, rfl⟩
  · rw [hdropped]
    rcases hs with ⟨hclear, -⟩ | ⟨-, e', hmem, hcause⟩
    · simp [hclear] at herr
    · exact .inr ⟨herr, e', List.mem_cons_of_mem _ hmem, hcause⟩

/-- A host write keeps the invariant: to `STATUS` it clears both fields or none, elsewhere it does not reach them. -/
theorem StatusInv.store {s t : State} {reg : Reg} {w : Word} (hs : StatusInv s)
    (hregs : t.regs = writeReg reg w s.regs) (hreports : t.reports = s.reports) : StatusInv t := by
  by_cases hstatus : reg = .status
  · subst hstatus
    rw [writeReg] at hregs
    split at hregs
    · exact .inl (by simp [hregs])
    · exact hs.of_eq (by rw [hregs]) (by rw [hregs]) hreports
  · obtain ⟨herr, hcause⟩ := writeReg_status_fields s.regs w hstatus
    exact hs.of_eq (hregs ▸ herr) (hregs ▸ hcause) hreports

theorem StatusInv.result {s : State} (hs : StatusInv s) (i : Instr) : StatusInv (result i s) := by
  rcases result_status i s with ⟨e, h⟩ | ⟨herr, hcause, hreports⟩
  · exact h ▸ hs.raise e
  · exact hs.of_eq herr hcause hreports

theorem StatusInv.step {s t : State} (hs : StatusInv s) (h : step s = .next t) : StatusInv t := by
  have taken (rest : List HostEvent) : StatusInv (s.withInputs rest) := hs.of_eq rfl rfl rfl
  cases step_effect h with
  | quiet hregs hreports => exact hs.of_eq (by rw [hregs]) (by rw [hregs]) hreports
  | reset _ hregs _ => exact .inl ⟨by rw [hregs]; rfl, by rw [hregs]; rfl⟩
  | store reg w _ hregs hreports => exact hs.store hregs hreports
  | command w i rest _ _ hnext => exact hnext ▸ (taken rest).result i
  | illegal w rest _ _ hnext => exact hnext ▸ (taken rest).raise _

/-! ### What the results of a command depend on (rule R26, the column "reads") -/

/-- The host reads the same from these registers. -/
def AgreeOn (rs : List Reg) (r r' : Regs) : Prop := ∀ reg ∈ rs, readReg reg r = readReg reg r'

section
variable {rs : List Reg} {r r' : Regs}

theorem AgreeOn.mono {rs' : List Reg} (h : AgreeOn rs r r') (hsub : ∀ reg ∈ rs', reg ∈ rs) : AgreeOn rs' r r' :=
  fun reg hreg => h reg (hsub reg hreg)

theorem agreeOn_append {rs' : List Reg} : AgreeOn (rs ++ rs') r r' ↔ AgreeOn rs r r' ∧ AgreeOn rs' r r' := by
  simp [AgreeOn, or_imp, forall_and]

/-- A narrow register is known from what the host reads, since its value is only zero-extended (rule R33). -/
theorem setWidth_injective {n : Nat} (hn : n ≤ 32) {a b : BitVec n}
    (h : BitVec.setWidth 32 a = BitVec.setWidth 32 b) : a = b := by
  have := congrArg (BitVec.setWidth n) h
  rwa [BitVec.setWidth_setWidth_of_le _ hn, BitVec.setWidth_setWidth_of_le _ hn, BitVec.setWidth_eq,
    BitVec.setWidth_eq] at this

theorem AgreeOn.tuple (h : AgreeOn tupleRegs r r') :
    r.saddr = r'.saddr ∧ r.daddr = r'.daddr ∧ r.sport = r'.sport ∧ r.dport = r'.dport :=
  ⟨h .saddr (by decide), h .daddr (by decide), setWidth_injective (by decide) (h .sport (by decide)),
    setWidth_injective (by decide) (h .dport (by decide))⟩

theorem AgreeOn.mlen (h : AgreeOn rs r r') (hmem : .mlen ∈ rs) : r.mlen = r'.mlen :=
  setWidth_injective (by decide) (h .mlen hmem)

theorem AgreeOn.tick (h : AgreeOn tickRegs r r') : r.tick = r'.tick := by
  rw [Regs.tick, Regs.tick, show r.tickLo = r'.tickLo from h .tickLo (by decide),
    show r.tickHi = r'.tickHi from h .tickHi (by decide)]

theorem AgreeOn.h_eq (h : AgreeOn hRegs r r') : r.h = r'.h :=
  Vector.ext fun k hk => h (.h ⟨k, hk⟩) (h_mem_hRegs _)

theorem AgreeOn.secret_eq (h : AgreeOn secretRegs r r') : r.secret = r'.secret :=
  Vector.ext fun k hk => h (.s ⟨k, hk⟩) (s_mem_secretRegs _)

theorem AgreeOn.msg_eq (h : AgreeOn msgRegs r r') : r.msg = r'.msg :=
  Vector.ext fun k hk => h (.msg ⟨k, hk⟩) (msg_mem_msgRegs _)

theorem AgreeOn.designated (h : AgreeOn rs r r') (hmem : .s 15 ∈ rs) : r.designated = r'.designated := h (.s 15) hmem

/-- The first 16 bytes of a buffer are those of its first four words (rule R41). -/
theorem take_sixteen_bytes (m : Vector Word 16) : (m.toList.flatMap (wordBytes .little)).take 16 =
    wordBytes .little m[0] ++ wordBytes .little m[1] ++ wordBytes .little m[2] ++ wordBytes .little m[3] := by
  simp [toList_sixteen, wordBytes]

/-- The key is the bytes of the first four secret words (rule R73). -/
theorem key_eq_words (r : Regs) : r.key = wordBytes .little r.secret[0] ++ wordBytes .little r.secret[1] ++
    wordBytes .little r.secret[2] ++ wordBytes .little r.secret[3] :=
  take_sixteen_bytes r.secret

theorem AgreeOn.key (h : AgreeOn [.s 0, .s 1, .s 2, .s 3] r r') : r.key = r'.key := by
  have h0 : r.secret[0] = r'.secret[0] := h (.s 0) (by decide)
  have h1 : r.secret[1] = r'.secret[1] := h (.s 1) (by decide)
  have h2 : r.secret[2] = r'.secret[2] := h (.s 2) (by decide)
  have h3 : r.secret[3] = r'.secret[3] := h (.s 3) (by decide)
  rw [key_eq_words, key_eq_words, h0, h1, h2, h3]

theorem packedBytes_congr (htuple : AgreeOn tupleRegs r r') (hs : r.designated = r'.designated) :
    packedBytes r = packedBytes r' := by
  obtain ⟨hsaddr, hdaddr, hsport, hdport⟩ := htuple.tuple
  rw [packedBytes, packedBytes, hsaddr, hdaddr, hsport, hdport, hs]

/-- The words `PACK.M` places in `H` are those of the tuple and the designated secret word. -/
theorem packM_h_congr (htuple : AgreeOn tupleRegs r r') (hs : r.designated = r'.designated) :
    (packM r).h = (packM r').h := by
  obtain ⟨hsaddr, hdaddr, hsport, hdport⟩ := htuple.tuple
  rw [packM_h, packM_h, Regs.ports, Regs.ports, hsaddr, hdaddr, hsport, hdport, hs]

/-- The first four message registers after `PACK.S` hold the packed bytes. -/
theorem getElem_storePacked_of_lt (bytes : List Byte) (m : Vector Word 16) {k : Fin 16} (h : k.val < 4) :
    (storePacked bytes m)[k] = bufferWord bytes k.val := by
  obtain ⟨k, hk⟩ := k
  simp only [Fin.getElem_fin, storePacked] at h ⊢
  interval_cases k <;> simp

/-- A register filled from a buffer holds the four bytes from its place on (rule R41). -/
theorem wordBytes_bufferWord (bytes : List Byte) (j : Nat) : wordBytes .little (bufferWord bytes j) =
    [bytes.getD (4 * j) 0#8, bytes.getD (4 * j + 1) 0#8, bytes.getD (4 * j + 2) 0#8, bytes.getD (4 * j + 3) 0#8] :=
  wordBytes_wordOfBytes .little _ _ _ _

/-- After `PACK.S` the keyed hash's message is the packed tuple (rules R88 and R90). -/
theorem packS_message (r : Regs) : (packS r).message = packedBytes r := by
  have stored (k : Fin 16) (hk : k.val < 4) : (packS r).msg[k] = bufferWord (packedBytes r) k.val := by
    rw [packS_msg, getElem_storePacked_of_lt _ _ hk]
  have h0 : (packS r).msg[0] = _ := stored 0 (by decide)
  have h1 : (packS r).msg[1] = _ := stored 1 (by decide)
  have h2 : (packS r).msg[2] = _ := stored 2 (by decide)
  have h3 : (packS r).msg[3] = _ := stored 3 (by decide)
  rw [Regs.message, packS_mlen]
  refine (take_sixteen_bytes (packS r).msg).trans ?_
  rw [h0, h1, h2, h3]
  simp only [wordBytes_bufferWord]
  simp [packedBytes, wordBytes, halfBytes]

theorem packS_key (r : Regs) : (packS r).key = r.key := by
  rw [key_eq_words, key_eq_words, packS_secret]

/-- The digest `DERIVE.S` stores comes from the tuple, the key and the designated secret word. -/
theorem packS_digest_congr (htuple : AgreeOn tupleRegs r r') (hs : r.designated = r'.designated)
    (hkey : AgreeOn [.s 0, .s 1, .s 2, .s 3] r r') : (packS r).digest = (packS r').digest := by
  rw [Regs.digest, Regs.digest, packS_key, packS_key, packS_message, packS_message, hkey.key,
    packedBytes_congr htuple hs]

theorem readReg_congr_of_h_eq {reg : Reg} (h : r.h = r'.h) (hreg : reg ∈ hRegs) : readReg reg r = readReg reg r' := by
  simp only [hRegs, List.mem_cons, List.not_mem_nil, or_false] at hreg
  rcases hreg with rfl | rfl | rfl | rfl <;> simp only [readReg, h]

/-- What `PACK.S` stores in its five registers depends on the tuple and the designated secret word. -/
theorem readReg_packS_congr {reg : Reg} (htuple : AgreeOn tupleRegs r r') (hs : r.designated = r'.designated)
    (hreg : reg ∈ [Reg.msg 0, .msg 1, .msg 2, .msg 3, .mlen]) : readReg reg (packS r) = readReg reg (packS r') := by
  have stored (k : Fin 16) (hk : k.val < 4) : readReg (.msg k) (packS r) = readReg (.msg k) (packS r') := by
    simp only [readReg, packS_msg, getElem_storePacked_of_lt _ _ hk, packedBytes_congr htuple hs]
  simp only [List.mem_cons, List.not_mem_nil, or_false] at hreg
  rcases hreg with rfl | rfl | rfl | rfl | rfl
  · exact stored 0 (by decide)
  · exact stored 1 (by decide)
  · exact stored 2 (by decide)
  · exact stored 3 (by decide)
  · simp only [readReg, packS_mlen]

theorem readReg_storeDigest_congr {reg : Reg} {d d' : DWord} (h : d = d') (hreg : reg ∈ [Reg.dLo, .dHi]) :
    readReg reg (storeDigest d r) = readReg reg (storeDigest d' r') := by
  simp only [List.mem_cons, List.not_mem_nil, or_false] at hreg
  rcases hreg with rfl | rfl
  · simp only [readReg, storeDigest_dLo, h]
  · simp only [readReg, storeDigest_dHi, h]

end

/-- Two states that agree on a command's read set agree after it on its write set, `STATUS` left out. -/
theorem readReg_result_congr {i : Instr} {s s' : State} {reg : Reg} (h : AgreeOn (readSet i) s.regs s'.regs)
    (hlen : i = .khash → s.regs.mlen.toNat ≤ 64) (hreg : reg ∈ writeSet i) (hstatus : reg ≠ .status) :
    readReg reg (result i s).regs = readReg reg (result i s').regs := by
  cases i with
  | nop => simp [writeSet] at hreg
  | packM =>
    obtain ⟨htuple, hs⟩ := agreeOn_append.1 h
    exact readReg_congr_of_h_eq (packM_h_congr htuple (hs.designated (by decide))) hreg
  | packS =>
    obtain ⟨htuple, hs⟩ := agreeOn_append.1 h
    exact readReg_packS_congr htuple (hs.designated (by decide)) hreg
  | compress =>
    obtain ⟨hh, hsecret⟩ := agreeOn_append.1 h
    refine readReg_congr_of_h_eq ?_ hreg
    simp only [result, State.withRegs_regs, compressH_h, hh.h_eq, hsecret.secret_eq]
  | khash =>
    obtain ⟨hkey, hmsg⟩ := agreeOn_append.1 h
    have hmlen : s.regs.mlen = s'.regs.mlen := hkey.mlen (by decide)
    have hdigest : s.regs.digest = s'.regs.digest := by
      rw [Regs.digest, Regs.digest, (hkey.mono (by simp)).key, Regs.message, Regs.message, Regs.messageBytes,
        Regs.messageBytes, hmsg.msg_eq, hmlen]
    have hreg' : reg ∈ [Reg.dLo, .dHi] := by
      simp only [writeSet, List.mem_cons, List.not_mem_nil, or_false] at hreg ⊢
      tauto
    have hk : khash s = _ := khash_withRegs s (hlen rfl)
    have hk' : khash s' = _ := khash_withRegs s' (hmlen ▸ hlen rfl)
    rw [result, result, hk, hk']
    exact readReg_storeDigest_congr hdigest hreg'
  | scaleM =>
    obtain ⟨hh, htick⟩ := agreeOn_append.1 h
    obtain rfl := List.mem_singleton.1 hreg
    have hh0 : s.regs.h[0] = s'.regs.h[0] := hh (.h 0) (by decide)
    simp only [result, State.withRegs_regs, readReg, scaleM_seq, hh0, htick.tick]
  | scaleS =>
    obtain ⟨hd, htick⟩ := agreeOn_append.1 h
    obtain rfl := List.mem_singleton.1 hreg
    have hdLo : s.regs.dLo = s'.regs.dLo := hd .dLo (by decide)
    simp only [result, State.withRegs_regs, readReg, scaleS_seq, digestBase_eq_dLo, hdLo, htick.tick]
  | deriveM =>
    obtain ⟨hinputs, htick⟩ := agreeOn_append.1 h
    obtain ⟨htuple, hsecret⟩ := agreeOn_append.1 hinputs
    have hpacked := packM_h_congr htuple (hsecret.designated (s_mem_secretRegs 15))
    have hh : (compressH (packM s.regs)).h = (compressH (packM s'.regs)).h := by
      rw [compressH_h, compressH_h, hpacked, packM_secret, packM_secret, hsecret.secret_eq]
    rcases List.mem_append.1 hreg with hreg | hreg
    · exact readReg_congr_of_h_eq (by rw [result, result, deriveM, deriveM, State.withRegs_regs,
        State.withRegs_regs, scaleM_h, scaleM_h, hh]) hreg
    · obtain rfl := List.mem_singleton.1 hreg
      simp only [result, deriveM, State.withRegs_regs, readReg, scaleM_seq, hh, compressH_tick, packM_tick,
        htick.tick]
  | deriveS =>
    obtain ⟨hinputs, htick⟩ := agreeOn_append.1 h
    obtain ⟨htuple, hsecret⟩ := agreeOn_append.1 hinputs
    have hs := hsecret.designated (by decide)
    have hdigest := packS_digest_congr htuple hs (hsecret.mono (by simp))
    simp only [result, deriveS_eq, State.withRegs_regs]
    have hsplit : reg = .seq ∨ reg ∈ [Reg.dLo, .dHi] ∨ reg ∈ [Reg.msg 0, .msg 1, .msg 2, .msg 3, .mlen] := by
      simp only [writeSet, List.mem_cons, List.not_mem_nil, or_false] at hreg ⊢
      tauto
    rcases hsplit with rfl | hd | hm
    · simp only [readReg, scaleS_seq, digestBase_eq_dLo, storeDigest_dLo, hdigest, storeDigest_tick, packS_tick,
        htick.tick]
    · have hseq : reg ≠ .seq := by rintro rfl; simp at hd
      rw [readReg_scaleS _ hseq, readReg_scaleS _ hseq]
      exact readReg_storeDigest_congr hdigest hd
    · have hseq : reg ≠ .seq := by rintro rfl; simp at hm
      have hlo : reg ≠ .dLo := by rintro rfl; simp at hm
      have hhi : reg ≠ .dHi := by rintro rfl; simp at hm
      rw [readReg_scaleS _ hseq, readReg_scaleS _ hseq, readReg_storeDigest _ _ hlo hhi,
        readReg_storeDigest _ _ hlo hhi]
      exact readReg_packS_congr htuple hs hm

/-! ### `SEQ` is a latch (rule R22): another value of it reaches no command -/

/-- `s` with another value in `SEQ`. -/
def State.withSeq (s : State) (v : Word) : State := s.withRegs (s.regs.setSeq v)

section
variable (s : State) (r : Regs) (v : Word)

@[simp] theorem State.withSeq_regs : (s.withSeq v).regs = s.regs.setSeq v := (rfl)

theorem packM_setSeq : packM (r.setSeq v) = (packM r).setSeq v := rfl

theorem packS_setSeq : packS (r.setSeq v) = (packS r).setSeq v := rfl

theorem compressH_setSeq : compressH (r.setSeq v) = (compressH r).setSeq v := by
  rw [compressH, compressH, Regs.setSeq_h, Regs.setSeq_secret]
  generalize compress r.h r.secret = h
  rfl

theorem storeDigest_setSeq (d : DWord) : storeDigest d (r.setSeq v) = (storeDigest d r).setSeq v := by
  rw [storeDigest, storeDigest]
  generalize digestWord d 0 = lo, digestWord d 32 = hi
  rfl

theorem digest_setSeq : (r.setSeq v).digest = r.digest := by
  simp only [Regs.digest, Regs.key, Regs.secretBytes, Regs.message, Regs.messageBytes, Regs.setSeq_secret,
    Regs.setSeq_msg, Regs.setSeq_mlen]

theorem scaleM_setSeq : scaleM (r.setSeq v) = scaleM r := rfl

theorem scaleS_setSeq : scaleS (r.setSeq v) = scaleS r := rfl

theorem raise_withSeq (e : Report) : raise e (s.withSeq v) = (raise e s).withSeq v := by
  rcases raise_cases e s with ⟨herr, h⟩ | ⟨herr, h⟩
  · rw [h, raise, if_pos (by simpa using herr)]
    rfl
  · rw [h, raise, if_neg (by simp [herr])]
    rfl

theorem khash_withSeq : khash (s.withSeq v) = (khash s).withSeq v := by
  rcases khash_cases s with ⟨hlen, h⟩ | ⟨hlen, h⟩
  · rw [h, khash, if_pos (by simpa [Config.maxLen] using hlen), raise_withSeq]
    rfl
  · rw [h, State.withSeq, khash_withRegs s (by simpa using hlen), digest_setSeq, storeDigest_setSeq]
    rfl

/-- A command that does not write `SEQ` does the same with any value in it, and keeps the value. -/
theorem result_withSeq_of_not_mem {i : Instr} (h : i ∉ [Instr.scaleM, .scaleS, .deriveM, .deriveS]) :
    result i (s.withSeq v) = (result i s).withSeq v := by
  cases i with
  | nop => rfl
  | packM => exact congrArg s.withRegs (packM_setSeq s.regs v)
  | packS => exact congrArg s.withRegs (packS_setSeq s.regs v)
  | compress => exact congrArg s.withRegs (compressH_setSeq s.regs v)
  | khash => exact khash_withSeq s v
  | _ => simp at h

/-- A command that writes `SEQ` leaves the same state whatever value stood in it. -/
theorem result_withSeq_of_mem {i : Instr} (h : i ∈ [Instr.scaleM, .scaleS, .deriveM, .deriveS]) :
    result i (s.withSeq v) = result i s := by
  simp only [List.mem_cons, List.not_mem_nil, or_false] at h
  rcases h with rfl | rfl | rfl | rfl
  · exact congrArg s.withRegs (scaleM_setSeq s.regs v)
  · exact congrArg s.withRegs (scaleS_setSeq s.regs v)
  · rw [result, result, deriveM, deriveM, State.withSeq_regs, packM_setSeq, compressH_setSeq, scaleM_setSeq,
      State.withSeq, State.withRegs_withRegs]
  · rw [result, result, deriveS_eq, deriveS_eq, State.withSeq_regs, packS_setSeq, digest_setSeq,
      storeDigest_setSeq, scaleS_setSeq, State.withSeq, State.withRegs_withRegs]

end

/-- A host write or a report leaves `SEQ`; so a step that changes it is reset or one of its four commands. -/
theorem step_seq {s t : State} (h : step s = .next t) (hseq : t.regs.seq ≠ s.regs.seq) :
    Asks s .reset ∨ ∃ w i, Asks s (.write 0#6 w) ∧ decode w = .ok i ∧
      i ∈ [Instr.scaleM, .scaleS, .deriveM, .deriveS] := by
  cases step_effect h with
  | quiet hregs => exact absurd (by rw [hregs]) hseq
  | reset ask => exact .inl ask
  | store reg w _ hregs => exact absurd (by rw [hregs, writeReg_seq]) hseq
  | command w i rest ask hdec hnext =>
    refine .inr ⟨w, i, ask, hdec, (seq_mem_writeSet_iff i).1 ?_⟩
    by_contra hmem
    exact hseq (hnext ▸ readReg_result (s.withInputs rest) hmem)
  | illegal w rest _ _ hnext =>
    exact absurd (hnext ▸ readReg_raise (.illegalCommand w) (s.withInputs rest) (reg := .seq) (by decide)) hseq

/-- A step that changes the secret is reset or stores one word of it. -/
theorem step_secret {s t : State} (h : step s = .next t) (hsecret : t.regs.secret ≠ s.regs.secret) :
    Asks s .reset ∨ ∃ (k : Fin 16) (w : Word), Asks s (.write (indexOfReg (.s k)) w) ∧
      t.regs.secret = s.regs.secret.set k w := by
  cases step_effect h with
  | quiet hregs => exact absurd (by rw [hregs]) hsecret
  | reset ask => exact .inl ask
  | store reg w ask hregs =>
    rcases writeReg_secret s.regs w reg with ⟨k, rfl, hset⟩ | hkept
    · exact .inr ⟨k, w, ask, by rw [hregs, hset]⟩
    · exact absurd (by rw [hregs, hkept]) hsecret
  | command w i rest _ _ hnext => exact absurd (by rw [hnext, result_secret, State.withInputs_regs]) hsecret
  | illegal w rest _ _ hnext =>
    refine absurd (Vector.ext fun k hk => ?_) hsecret
    exact hnext ▸ readReg_raise (.illegalCommand w) (s.withInputs rest) (reg := .s ⟨k, hk⟩) (by simp)

/-! ### The obligations: tier 3 -/

/-- Settles O35: by what a step can do, with the frame of the host's write, of a command and of a report. -/
theorem registerKeepsItsValue : Obligations.RegisterKeepsItsValue := by
  intro s t reg h hne
  cases step_effect h with
  | quiet hregs => exact absurd (by rw [hregs]) hne
  | reset ask => exact .inl ask
  | store stored w ask hregs =>
    have hreg : reg = stored := by
      by_contra hother
      exact hne (hregs ▸ readReg_writeReg_of_ne s.regs w hother)
    exact .inr (.inl ⟨w, hreg ▸ ask⟩)
  | command w i rest ask hdec hnext =>
    refine .inr (.inr (.inl ⟨w, i, ask, hdec, ?_⟩))
    by_contra hmem
    exact hne (hnext ▸ readReg_result (s.withInputs rest) hmem)
  | illegal w rest ask hdec hnext =>
    refine .inr (.inr (.inr ⟨w, ask, hdec, ?_⟩))
    by_contra hstatus
    exact hne (hnext ▸ readReg_raise _ (s.withInputs rest) hstatus)

/-- Settles O43. -/
theorem statusInvariantKeptByEveryStep : Obligations.StatusInvariantKeptByEveryStep :=
  fun _ _ hs h => hs.step h

/-! ### The obligations: tier 2 -/

/-- Settles O33. -/
theorem unlistedRegistersAreUnchanged : Obligations.UnlistedRegistersAreUnchanged := by
  intro i s t h
  refine ⟨fun reg hreg => ?_, exec_next_frame h⟩
  rw [exec_next h]
  exact readReg_result s hreg

/-- Settles O34. -/
theorem resultsDependOnListedRegisters : Obligations.ResultsDependOnListedRegisters := by
  intro i s s' t t' hread hlen h h' reg hreg hstatus
  rw [exec_next h, exec_next h']
  exact readReg_result_congr hread hlen hreg hstatus

/-- Settles O36. -/
theorem secretChangesOnlyByHostOrReset : Obligations.SecretChangesOnlyByHostOrReset := by
  refine ⟨fun i s t h => ?_, fun s t => step_secret, fun s rest k hin => ?_⟩
  · rw [exec_next h, result_secret]
  · exact step_asmRd hin

/-- Settles O37: the third clause by `result_withSeq_of_mem` for the four commands that write `SEQ`, where both runs end
in one state, and by `result_withSeq_of_not_mem` for the others. -/
theorem seqIsAResultLatch : Obligations.SeqIsAResultLatch := by
  refine ⟨fun s t => step_seq, fun s rest w hin => ?_, fun i s t t' v h h' => ?_⟩
  · exact step_asmWr (reg := .seq) (by decide) hin
  · have ht : t = result i s := exec_next h
    have ht' : t' = result i (s.withSeq v) := exec_next h'
    by_cases hi : i ∈ [Instr.scaleM, .scaleS, .deriveM, .deriveS]
    · obtain rfl : t' = t := by rw [ht', ht, result_withSeq_of_mem s v hi]
      exact ⟨rfl, rfl, fun _ => rfl, fun hni => absurd hi hni⟩
    · obtain rfl : t' = t.withSeq v := by rw [ht', ht, result_withSeq_of_not_mem s v hi]
      have hkept : t.regs.seq = s.regs.seq := by
        rw [ht]
        exact readReg_result s fun hmem => hi ((seq_mem_writeSet_iff i).1 hmem)
      exact ⟨rfl, rfl, fun hmem => absurd hmem hi, fun _ => ⟨hkept, rfl⟩⟩

/-- Settles O44: the code of a report is 1 or 2. -/
theorem statusReadsOneOfThreeValues : Obligations.StatusReadsOneOfThreeValues := by
  rintro s (⟨herr, hcause⟩ | ⟨herr, e, hmem, hcause⟩)
  · have hzero : readReg .status s.regs = 0x0#32 := by simp [readReg, Regs.statusWord, herr, hcause]
    exact ⟨.inl hzero, fun _ => hzero⟩
  · refine ⟨.inr ?_, fun hclean => ?_⟩
    · rw [readReg, Regs.statusWord, herr, hcause]
      cases e with
      | invalidLength n => exact .inl (by simp [Report.code])
      | illegalCommand w => exact .inr (by simp [Report.code])
    · rw [Clean] at hclean
      simp [hclean] at hmem

/-- Settles O48: the write's step, then the read's. -/
theorem readReturnsTheLatestWrite : Obligations.ReadReturnsTheLatestWrite := by
  intro s rest reg w hreg
  have hcmd : reg ≠ .cmd := by rintro rfl; cases hreg
  have hwrite := step_asmWr (s := s.withInputs (asmWr reg w ++ asmRd reg ++ rest)) (rest := asmRd reg ++ rest)
    hcmd (List.append_assoc _ _ _)
  have hread := step_asmRd (s := (s.withInputs (asmRd reg ++ rest)).withRegs (writeReg reg w s.regs)) rfl
  refine ⟨_, (run_succ hwrite 1).trans (run_succ hread 0), ?_, rfl⟩
  exact congrArg (· :: s.reads) (readReg_writeReg_self s.regs w hreg)

/-! ### The obligations: tier 1 -/

/-- Settles O1. -/
theorem resetHoldsZeroEverywhere : Obligations.ResetHoldsZeroEverywhere := by
  unfold Obligations.ResetHoldsZeroEverywhere
  decide

/-- Settles O2. -/
theorem resetEventZeroesEveryRegister : Obligations.ResetEventZeroesEveryRegister := by
  intro s rest hin
  exact ⟨resetEvent (s.withInputs rest), step_of_inputs hin rfl, registerFile_reset, rfl, rfl, rfl⟩

/-- Settles O6. -/
theorem stepRunsTheDecodedCommand : Obligations.StepRunsTheDecodedCommand := by
  intro s rest w i hin hdec _
  rw [step_of_inputs hin rfl, perform, regWrite_cmd, execute_of_decode _ w hdec]
  rfl

/-- Settles O7. -/
theorem deliveredTableWordRuns : Obligations.DeliveredTableWordRuns := by
  intro s i
  have hin : (s.withFetchWord 32 (encode i).toNat).inputs = .regWrite 0#6 (encode i) :: s.inputs := by
    rw [State.withFetchWord, State.withInputs_inputs, commandEvent_encode]
  refine ⟨decodeTableWord_encode i, ?_⟩
  exact stepRunsTheDecodedCommand _ _ _ i hin (decode_encode i) (by cases i <;> rfl)

/-- Settles O42. -/
theorem statusInvariantAtReset : Obligations.StatusInvariantAtReset := .inl ⟨rfl, rfl⟩

end Sys2Proof.Machine

/-!
The statements about the access port and the buffers (spec/20_memory.md), in layers: what a step does to the list of
events; the register file as the list of what the host reads, with one rule for a host write; the byte views; the
byte-addressed view; then the commands run twice; then the obligations, each a short use of these.
-/

namespace Sys2Proof.Machine

/-! ### The events left after a step (rule R45) -/

section
variable {s t : State}

/-- A command word or an illegal one leaves the events alone. -/
theorem execute_inputs {w : Word} (h : execute w s = .next t) : t.inputs = s.inputs := by
  rcases execute_cases h with ⟨i, -, hexec⟩ | ⟨e, -, rfl⟩
  · exact (exec_next_frame hexec).1
  · exact raise_inputs _ s

theorem regWrite_inputs {i : BitVec 6} {w : Word} (h : regWrite i w s = .next t) : t.inputs = s.inputs := by
  rcases regWrite_cases h with ⟨-, hexecute⟩ | ⟨reg, -, -, rfl⟩ | ⟨-, rfl⟩
  · exact execute_inputs hexecute
  · rfl
  · rfl

/-- The port adds no event of its own and drops none. -/
theorem perform_inputs {p : PortEvent} (h : perform p s = .next t) : t.inputs = s.inputs := by
  rcases perform_cases h with ⟨i, -, rfl⟩ | ⟨i, w, -, hwrite⟩ | ⟨-, rfl⟩
  · rfl
  · exact regWrite_inputs hwrite
  · rfl

/-- A defined event is performed whole and taken from the list (rules R45 and R129). -/
theorem step_of_wf {e : HostEvent} {rest : List HostEvent} (hin : s.inputs = e :: rest) (he : e.wf = true) :
    ∃ t, step s = .next t ∧ t.inputs = rest := by
  obtain ⟨p, hp⟩ := resolve_ok_iff_wf.2 he
  obtain ⟨t, ht⟩ := perform_completes p (s.withInputs rest)
  exact ⟨t, (step_of_inputs hin hp).trans ht, perform_inputs ht⟩

/-- An event the spec does not define is refused (rules R39 and R123). -/
theorem step_of_not_wf {e : HostEvent} {rest : List HostEvent} (hin : s.inputs = e :: rest) (he : e.wf ≠ true) :
    ∃ r, step s = .refused r := by
  cases hresolve : resolve e with
  | ok p => exact absurd (resolve_ok_iff_wf.1 ⟨p, hresolve⟩) he
  | error r => exact ⟨r, by simp [step, nextEvent, hin, hresolve]⟩

end

/-! ### The register file: what the host reads at each index (rules R11 and R37) -/

/-- The mapped registers in the order of their indices. -/
def mappedRegs : List Reg :=
  [Reg.cmd, .status, .saddr, .daddr, .sport, .dport, .tickLo, .tickHi, .mlen, .seq, .dLo, .dHi]
    ++ hRegs ++ secretRegs ++ msgRegs

/-- Every register stands in the list at its index. -/
theorem getElem?_mappedRegs (reg : Reg) : mappedRegs[(indexOfReg reg).toNat]? = some reg := by
  cases reg with
  | h k => revert k; decide
  | s k => revert k; decide
  | msg k => revert k; decide
  | _ => rfl

theorem indexOfReg_lt (reg : Reg) : (indexOfReg reg).toNat < 48 := by
  cases reg with
  | h k => revert k; decide
  | s k => revert k; decide
  | msg k => revert k; decide
  | _ => decide

/-- No two registers share an index. -/
theorem indexOfReg_inj {reg reg' : Reg} : indexOfReg reg = indexOfReg reg' ↔ reg = reg' := by
  refine ⟨fun h => ?_, congrArg indexOfReg⟩
  have hsome := regOfIndex_indexOfReg reg
  rw [h, regOfIndex_indexOfReg] at hsome
  exact (Option.some.inj hsome).symm

/-- An index is that of a register or is unmapped. -/
theorem indexOfReg_or_unmapped (i : BitVec 6) : (∃ reg, i = indexOfReg reg) ∨ 48 ≤ i.toNat := by
  cases h : regOfIndex i with
  | some reg => exact .inl ⟨reg, regOfIndex_eq_some.1 h⟩
  | none => exact .inr (regOfIndex_eq_none.1 h)

section
variable (r : Regs)

/-- The words of a group are its indices read one by one. -/
theorem toList_eq_map_finRange {n : Nat} (v : Vector Word n) : v.toList = (List.finRange n).map (v[·]) := by
  apply List.ext_getElem <;> simp

/-- The register file is the host's read of the mapped registers in order. -/
theorem registerFile_eq_map : registerFile r = mappedRegs.map (readReg · r) := by
  simp only [registerFile, mappedRegs, hRegs, secretRegs, msgRegs, List.map_append, toList_eq_map_finRange,
    List.map_map]
  rfl

theorem length_registerFile : (registerFile r).length = 48 := by
  rw [registerFile_eq_map, List.length_map]
  rfl

theorem getElem?_registerFile (reg : Reg) :
    (registerFile r)[(indexOfReg reg).toNat]? = some (readReg reg r) := by
  rw [registerFile_eq_map, List.getElem?_map, getElem?_mappedRegs, Option.map_some]

/-- A host read returns the entry of the register file, and zero past its end (rule R37). -/
theorem regReadValue_eq (i : BitVec 6) : regReadValue i r = (registerFile r).getD i.toNat 0#32 := by
  rw [List.getD_eq_getElem?_getD]
  rcases indexOfReg_or_unmapped i with ⟨reg, rfl⟩ | hi
  · rw [getElem?_registerFile, regReadValue, regOfIndex_indexOfReg, Option.getD_some]
  · rw [List.getElem?_eq_none (by rwa [length_registerFile]), regReadValue, regOfIndex_eq_none.2 hi, Option.getD_none]

/-- A host write to a register changes its entry of the register file and no other. -/
theorem registerFile_writeReg (reg : Reg) (w : Word) : registerFile (writeReg reg w r) =
    (registerFile r).set (indexOfReg reg).toNat (readReg reg (writeReg reg w r)) := by
  apply List.ext_getElem?
  intro k
  by_cases hk : k < 48
  · obtain ⟨other, rfl⟩ : ∃ other, k = (indexOfReg other).toNat := by
      rcases indexOfReg_or_unmapped (BitVec.ofNat 6 k) with ⟨other, h⟩ | h
      · exact ⟨other, by rw [← h, BitVec.toNat_ofNat, Nat.mod_eq_of_lt (by omega)]⟩
      · rw [BitVec.toNat_ofNat] at h
        omega
    rw [getElem?_registerFile]
    by_cases hreg : other = reg
    · subst hreg
      rw [List.getElem?_set_self (by rw [length_registerFile]; exact indexOfReg_lt other)]
    · have hne : (indexOfReg reg).toNat ≠ (indexOfReg other).toNat := fun h =>
        hreg (indexOfReg_inj.1 (BitVec.eq_of_toNat_eq h.symm))
      rw [List.getElem?_set_ne hne, getElem?_registerFile, readReg_writeReg_of_ne r w hreg]
  · rw [List.getElem?_eq_none (by rw [length_registerFile]; omega),
      List.getElem?_eq_none (by rw [List.length_set, length_registerFile]; omega)]

/-- The low `n` bits of a word are what a mask of `n` ones keeps (rule R33). -/
theorem ofNat_mod_two_pow_eq_and (w : Word) {n : Nat} (hn : n ≤ 32) :
    BitVec.ofNat 32 (w.toNat % 2 ^ n) = w &&& BitVec.ofNat 32 (2 ^ n - 1) := by
  apply BitVec.eq_of_toNat_eq
  have hle : 2 ^ n ≤ 2 ^ 32 := Nat.pow_le_pow_right (by decide) hn
  have hpos : 0 < 2 ^ n := Nat.two_pow_pos n
  rw [BitVec.toNat_and, BitVec.toNat_ofNat, BitVec.toNat_ofNat, Nat.mod_eq_of_lt (a := 2 ^ n - 1) (by omega),
    Nat.and_two_pow_sub_one_eq_mod, Nat.mod_eq_of_lt (Nat.lt_of_lt_of_le (Nat.mod_lt _ hpos) hle)]

/-- What a host write to a read-write register leaves in the register file: the word, cut to the stored bits
(rules R33 and R38). -/
theorem registerFile_writeReg_of_readWrite {reg : Reg} (w : Word) (h : hostAccess reg = .readWrite) :
    registerFile (writeReg reg w r) =
      (registerFile r).set (indexOfReg reg).toNat (w &&& BitVec.ofNat 32 (2 ^ storedBits reg - 1)) := by
  have hbits : storedBits reg ≤ 32 := by cases reg <;> simp [storedBits]
  rw [registerFile_writeReg, readReg_writeReg_self r w h, ofNat_mod_two_pow_eq_and w hbits]

/-- The registers a host may write that keep every bit of the word. -/
theorem readWrite_whole {reg : Reg} (hcmd : reg ≠ .cmd) (hstatus : reg ≠ .status) (hseq : reg ≠ .seq)
    (hport : ¬(reg = .sport ∨ reg = .dport)) (hmlen : reg ≠ .mlen) :
    hostAccess reg = .readWrite ∧ storedBits reg = 32 := by
  cases reg <;> simp_all [hostAccess, storedBits]

/-- A write of 1 to bit 0 of `STATUS` leaves zero in its entry, any other write leaves it (rule R110). -/
theorem registerFile_writeReg_status (w : Word) : registerFile (writeReg .status w r) =
    if w.getLsbD 0 then (registerFile r).set 1 0#32 else registerFile r := by
  split_ifs with hclear
  · have hzero : readReg .status r.acknowledge = 0#32 := by
      simp [readReg, Regs.statusWord]
    rw [registerFile_writeReg, writeReg, clearsStatus, if_pos hclear, hzero]
    rfl
  · rw [writeReg, clearsStatus, if_neg hclear]

/-- Rule R38 at the index of a register other than `CMD`: each clause names the index of its register. -/
theorem registerFile_writeReg_by_index {reg : Reg} (w : Word) (hcmd : reg ≠ .cmd) :
    registerFile (writeReg reg w r) =
      if indexOfReg reg = 1#6 then (if w.getLsbD 0 then (registerFile r).set 1 0#32 else registerFile r)
      else if indexOfReg reg = 9#6 ∨ 48 ≤ (indexOfReg reg).toNat then registerFile r
      else if indexOfReg reg = 4#6 ∨ indexOfReg reg = 5#6 then
        (registerFile r).set (indexOfReg reg).toNat (w &&& 0xFFFF#32)
      else if indexOfReg reg = 8#6 then (registerFile r).set (indexOfReg reg).toNat (w &&& 0x7F#32)
      else (registerFile r).set (indexOfReg reg).toNat w := by
  have named {other : Reg} : indexOfReg reg = indexOfReg other → reg = other := indexOfReg_inj.1
  by_cases hstatus : indexOfReg reg = 1#6
  · obtain rfl := named (other := .status) hstatus
    exact registerFile_writeReg_status r w
  rw [if_neg hstatus]
  split_ifs with hseq hport hmlen
  · obtain rfl := named (other := .seq) (hseq.resolve_right (Nat.not_le.2 (indexOfReg_lt reg)))
    rfl
  · rcases hport with hport | hport
    · obtain rfl := named (other := .sport) hport
      exact registerFile_writeReg_of_readWrite r w rfl
    · obtain rfl := named (other := .dport) hport
      exact registerFile_writeReg_of_readWrite r w rfl
  · obtain rfl := named (other := .mlen) hmlen
    exact registerFile_writeReg_of_readWrite r w rfl
  · obtain ⟨haccess, hbits⟩ : hostAccess reg = .readWrite ∧ storedBits reg = 32 :=
      readWrite_whole hcmd (fun h => hstatus (congrArg indexOfReg h)) (fun h => hseq (.inl (congrArg indexOfReg h)))
        (fun h => hport (h.imp (congrArg indexOfReg) (congrArg indexOfReg))) (fun h => hmlen (congrArg indexOfReg h))
    rw [registerFile_writeReg_of_readWrite r w haccess, hbits]
    exact congrArg _ (BitVec.and_allOnes (x := w))

/-- A write to an unmapped index is ignored (rule R38). -/
theorem regWrite_unmapped {i : BitVec 6} (w : Word) (s : State) (hi : 48 ≤ i.toNat) : regWrite i w s = .next s := by
  rw [regWrite, regOfIndex_eq_none.2 hi]

end

/-! ### The byte views (rule R41) -/

/-- Byte `i` of a word is its bits `8i+7` to `8i`. -/
theorem getElem?_wordBytes_little (w : Word) (i : Fin 4) :
    (wordBytes .little w)[i.val]? = some (w.extractLsb' (8 * i.val) 8) := by
  match i with
  | 0 => rfl
  | 1 => rfl
  | 2 => rfl
  | 3 => rfl

/-- Byte `4j+i` of a buffer is byte `i` of its word `j`. -/
theorem getElem?_flatMap_wordBytes (ws : List Word) (j : Nat) (i : Fin 4) :
    (ws.flatMap (wordBytes .little))[4 * j + i.val]? = ws[j]?.map (·.extractLsb' (8 * i.val) 8) := by
  induction ws generalizing j with
  | nil => rfl
  | cons w ws ih =>
    have hlen : (wordBytes .little w).length = 4 := rfl
    rw [List.flatMap_cons]
    cases j with
    | zero =>
      rw [List.getElem?_append_left (by omega), Nat.mul_zero, Nat.zero_add, getElem?_wordBytes_little]
      rfl
    | succ j =>
      rw [List.getElem?_append_right (by omega), hlen, show 4 * (j + 1) + i.val - 4 = 4 * j + i.val by omega, ih,
        List.getElem?_cons_succ]

/-- Byte `4j+i` of a group of registers. -/
theorem getElem?_groupBytes {n : Nat} (v : Vector Word n) (j : Fin n) (i : Fin 4) :
    (v.toList.flatMap (wordBytes .little))[4 * j.val + i.val]? = some (v[j].extractLsb' (8 * i.val) 8) := by
  simp [getElem?_flatMap_wordBytes]

/-- The digest is the byte view of the group `D_LO`, `D_HI`. -/
theorem digestBytes_eq_flatMap (r : Regs) : r.digestBytes = [r.dLo, r.dHi].flatMap (wordBytes .little) := rfl

/-! ### The byte-addressed view (rules R36 and R39) -/

theorem wordAligned_iff (offset : BitVec 8) : wordAligned offset = true ↔ offset.toNat % 4 = 0 := by
  revert offset; decide

/-- The index of an access is its offset in words (rule R36). -/
theorem indexOfOffset_eq (offset : BitVec 8) : indexOfOffset offset = BitVec.ofNat 6 (offset.toNat / 4) := by
  revert offset; decide

/-- The byte-addressed accesses the spec defines (rule R39). -/
theorem wordAccess_iff {offset : BitVec 8} {n : Nat} :
    wordWide n = true ∧ wordAligned offset = true ↔ n = 4 ∧ offset.toNat % 4 = 0 := by
  rw [wordAligned_iff, wordWide, beq_iff_eq]

/-- A step knows of its event only what the event asks of the port. -/
theorem step_congr_resolve (s : State) {e e' : HostEvent} (rest : List HostEvent) (h : resolve e = resolve e') :
    step (s.withInputs (e :: rest)) = step (s.withInputs (e' :: rest)) := by
  simp only [step, nextEvent, State.withInputs_inputs, h]
  rfl

section
variable {offset : BitVec 8} {n : Nat}

theorem resolve_memRead (h : n = 4 ∧ offset.toNat % 4 = 0) :
    resolve (.memRead offset n) = resolve (.regRead (BitVec.ofNat 6 (offset.toNat / 4))) := by
  obtain ⟨hwide, haligned⟩ := wordAccess_iff.2 h
  simp only [resolve, hwide, haligned, if_true, indexOfOffset_eq]

theorem resolve_memWrite (w : Word) (h : n = 4 ∧ offset.toNat % 4 = 0) :
    resolve (.memWrite offset n w) = resolve (.regWrite (BitVec.ofNat 6 (offset.toNat / 4)) w) := by
  obtain ⟨hwide, haligned⟩ := wordAccess_iff.2 h
  simp only [resolve, hwide, haligned, if_true, indexOfOffset_eq]

end

/-! ### A command word written twice (rule R40)

A command that reads nothing it writes finds its operands unchanged the second time. -/

/-- Only `COMPRESS` reads a register it writes (rule R26). -/
theorem not_mem_writeSet_of_mem_readSet {i : Instr} (hi : i ≠ .compress) : ∀ reg ∈ readSet i, reg ∉ writeSet i := by
  cases i with
  | compress => exact absurd rfl hi
  | _ => decide

/-- A command but `COMPRESS` leaves its own operands. -/
theorem agreeOn_readSet_result {i : Instr} (hi : i ≠ .compress) (s : State) :
    AgreeOn (readSet i) (result i s).regs s.regs :=
  fun reg hreg => readReg_result s (not_mem_writeSet_of_mem_readSet hi reg hreg)

/-- A command that meets no illegal length leaves `STATUS`. -/
theorem readReg_status_result {i : Instr} {s : State} (hlen : i = .khash → s.regs.mlen.toNat ≤ 64) :
    readReg .status (result i s).regs = readReg .status s.regs := by
  by_cases hi : i = .khash
  · subst hi
    have hstore : result .khash s = _ := khash_withRegs s (hlen rfl)
    rw [hstore, State.withRegs_regs, readReg_storeDigest _ _ (by decide) (by decide)]
  · refine readReg_result s ?_
    cases i with
    | khash => exact absurd rfl hi
    | _ => decide

/-- The host sees every register: what it reads determines them. -/
theorem regs_ext {r r' : Regs} (h : ∀ reg, readReg reg r = readReg reg r') : r = r' := by
  have agree (rs : List Reg) : AgreeOn rs r r' := fun reg _ => h reg
  obtain ⟨hsaddr, hdaddr, hsport, hdport⟩ := (agree tupleRegs).tuple
  have hstatus : r.cause ++ r.err = r'.cause ++ r'.err := setWidth_injective (by decide) (h .status)
  have herr : r.err = r'.err := by
    rw [← extractLsb'_append_low r.cause r.err, hstatus, extractLsb'_append_low]
  have hcause : r.cause = r'.cause := by
    rw [← extractLsb'_append_high r.cause r.err, hstatus, extractLsb'_append_high]
  have hmlen : r.mlen = r'.mlen := (agree [.mlen]).mlen (by decide)
  have htickLo : r.tickLo = r'.tickLo := h .tickLo
  have htickHi : r.tickHi = r'.tickHi := h .tickHi
  have hseq : r.seq = r'.seq := h .seq
  have hdLo : r.dLo = r'.dLo := h .dLo
  have hdHi : r.dHi = r'.dHi := h .dHi
  have hh : r.h = r'.h := (agree _).h_eq
  have hsecret : r.secret = r'.secret := (agree _).secret_eq
  have hmsg : r.msg = r'.msg := (agree _).msg_eq
  cases r
  cases r'
  simp_all

/-- A command but `COMPRESS` that meets no illegal length does nothing the second time. -/
theorem result_result_regs {i : Instr} (hi : i ≠ .compress) {s : State}
    (hlen : i = .khash → s.regs.mlen.toNat ≤ 64) : (result i (result i s)).regs = (result i s).regs := by
  have agree := agreeOn_readSet_result hi s
  have hlen' : i = .khash → (result i s).regs.mlen.toNat ≤ 64 := by
    rintro rfl
    rw [agree.mlen (by decide)]
    exact hlen rfl
  refine regs_ext fun reg => ?_
  by_cases hstatus : reg = .status
  · subst hstatus
    exact readReg_status_result hlen'
  · by_cases hreg : reg ∈ writeSet i
    · exact readReg_result_congr agree hlen' hreg hstatus
    · exact readReg_result _ hreg

theorem raise_err (e : Report) (s : State) : (raise e s).regs.err = 1#1 := by
  rcases raise_cases e s with ⟨-, h⟩ | ⟨herr, h⟩
  · rw [h]
    rfl
  · rw [h]
    exact herr

/-- A second report is dropped (rule R113). -/
theorem raise_raise_regs (e e' : Report) (s : State) : (raise e' (raise e s)).regs = (raise e s).regs := by
  rw [raise_regs, raise_err, if_neg (by decide)]

/-- `KHASH` on an illegal length reports it again, and the report is dropped. -/
theorem khash_khash_regs_of_illegal {s : State} (h : 64 < s.regs.mlen.toNat) :
    (khash (khash s)).regs = (khash s).regs := by
  have illegal {s : State} (h : 64 < s.regs.mlen.toNat) : khash s = raise (.invalidLength s.regs.mlen) s := if_pos h
  have hkept : (raise (.invalidLength s.regs.mlen) s).regs.mlen = s.regs.mlen :=
    setWidth_injective (by decide) (readReg_raise _ s (reg := .mlen) (by decide))
  rw [illegal h, illegal (hkept.symm ▸ h), raise_raise_regs]

/-- The zero state and the zero block: the second compression moves the state on. -/
theorem compress_compress_ne : compress (compress (Vector.replicate 4 0#32) (Vector.replicate 16 0#32))
    (Vector.replicate 16 0#32) ≠ compress (Vector.replicate 4 0#32) (Vector.replicate 16 0#32) := by
  decide +kernel

/-- `COMPRESS` twice from reset. -/
theorem compress_twice_from_reset :
    (result .compress (result .compress State.reset)).regs ≠ (result .compress State.reset).regs := by
  intro h
  have hh := congrArg Regs.h h
  simp only [result, State.withRegs_regs, compressH_h, compressH_secret] at hh
  exact compress_compress_ne hh

/-! ### The obligations: tier 3 -/

/-- Settles O55: the first event is defined, so it is performed and taken (`step_of_wf`). -/
theorem everyStepTakesOneEvent : Obligations.EveryStepTakesOneEvent := by
  intro s hne hwf
  obtain ⟨e, rest, hin⟩ := List.exists_cons_of_ne_nil hne
  rw [hin] at hwf ⊢
  obtain ⟨t, ht, hrest⟩ := step_of_wf hin (hwf e List.mem_cons_self)
  exact ⟨t, ht, hrest, fun e' he' => hwf e' (List.mem_cons_of_mem e (hrest ▸ he'))⟩

/-! ### The obligations: tier 2 -/

/-- Settles O38: a command but `COMPRESS` leaves its operands, and an illegal length is only reported again. -/
theorem everyCommandButCompressIsIdempotent : Obligations.EveryCommandButCompressIsIdempotent := by
  refine ⟨fun i s t u hi ht hu => ?_,
    State.reset, _, _, exec_eq_next _ _, exec_eq_next _ _, compress_twice_from_reset⟩
  obtain rfl := exec_next ht
  obtain rfl := exec_next hu
  by_cases hillegal : i = .khash ∧ 64 < s.regs.mlen.toNat
  · obtain ⟨rfl, hlen⟩ := hillegal
    exact khash_khash_regs_of_illegal hlen
  · exact result_result_regs hi fun hk => Nat.le_of_not_lt fun hlen => hillegal ⟨hk, hlen⟩

/-- Settles O46. -/
theorem regReadReturnsTheRegister : Obligations.RegReadReturnsTheRegister := by
  intro s rest i hin
  rw [step_of_inputs hin rfl, ← regReadValue_eq]
  rfl

/-- Settles O47: at the index of a register by `registerFile_writeReg_by_index`; an unmapped index, none of the named
ones, stores nothing. -/
theorem regWriteStoresTheStoredBits : Obligations.RegWriteStoresTheStoredBits := by
  intro s rest i w hin
  have hstep : step s = regWrite i w (s.withInputs rest) := step_of_inputs hin rfl
  by_cases hcmd : i = 0#6
  · rw [if_pos hcmd, hstep, hcmd]
    exact regWrite_cmd w _
  rw [if_neg hcmd]
  rcases indexOfReg_or_unmapped i with ⟨reg, rfl⟩ | hi
  · have hreg : reg ≠ .cmd := fun h => hcmd (congrArg indexOfReg h)
    exact ⟨_, hstep.trans (regWrite_indexOfReg _ w hreg), registerFile_writeReg_by_index s.regs w hreg⟩
  · have hstatus : i ≠ 1#6 := by rintro rfl; exact absurd hi (by decide)
    refine ⟨_, hstep.trans (regWrite_unmapped w _ hi), ?_⟩
    rw [if_neg hstatus, if_pos (.inr hi)]

/-- Settles O49. -/
theorem buffersAreLittleEndian : Obligations.BuffersAreLittleEndian := by
  intro r i
  refine ⟨fun j => getElem?_groupBytes r.secret j i, fun j => getElem?_groupBytes r.msg j i, ?_, ?_⟩
  · simpa [digestBytes_eq_flatMap] using getElem?_flatMap_wordBytes [r.dLo, r.dHi] 0 i
  · exact getElem?_flatMap_wordBytes [r.dLo, r.dHi] 1 i

/-- Settles O50: an aligned access asks of the port what the register access asks; any other is not well formed. -/
theorem onlyAlignedWordAccessesAreDefined : Obligations.OnlyAlignedWordAccessesAreDefined := by
  intro s rest offset n w
  refine ⟨fun h => ⟨?_, ?_⟩, fun h => ?_⟩
  · exact step_congr_resolve s rest (resolve_memRead h)
  · exact step_congr_resolve s rest (resolve_memWrite w h)
  · have hwf : (wordWide n && wordAligned offset) ≠ true := fun hw => h (wordAccess_iff.1 (Bool.and_eq_true_iff.1 hw))
    exact ⟨step_of_not_wf (e := .memRead offset n) rfl hwf, step_of_not_wf (e := .memWrite offset n w) rfl hwf⟩

end Sys2Proof.Machine

/-!
The statements about the command word (spec/30_encoding.md), in layers: the three fields of a word; the table of rule
R57 read from the fields; the classes of rule R58, each with its error; then the decoder's two answers, `decode_eq_ok_iff`
and `decode_eq_error_iff`, and the obligations.
-/

namespace Sys2Proof.Machine

/-! ### The fields of a word (rule R55) -/

/-- The three fields are the whole word: none of its bits is dropped. -/
theorem fields_append (w : Word) : reservedField w ++ backendField w ++ opField w = w := by
  have high : reservedField w ++ backendField w = w.extractLsb' 4 28 :=
    BitVec.extractLsb'_append_extractLsb'_eq_extractLsb' rfl
  calc reservedField w ++ backendField w ++ opField w
      = w.extractLsb' 4 28 ++ w.extractLsb' 0 4 := by rw [high, opField]
    _ = w.extractLsb' 0 32 := BitVec.extractLsb'_append_extractLsb'_eq_extractLsb' rfl
    _ = w := BitVec.extractLsb'_eq_self

theorem eq_of_fields {w : Word} {b : BitVec 1} {o : BitVec 4} (hrsv : reservedField w = 0#27)
    (hb : backendField w = b) (ho : opField w = o) : w = 0#27 ++ b ++ o := by
  rw [← hrsv, ← hb, ← ho]
  exact (fields_append w).symm

/-- The table of rule R57 read from the fields: each backend has a command at every operation below 5, but the second
has none at operation 0. -/
theorem command_of_fields (b : BitVec 1) {o : BitVec 4} (ho : o.toNat < 5) :
    (∃ i, bitOfBackend (backendOf i) = b ∧ opOf i = o) ∨ (b = 1#1 ∧ o = 0#4) := by
  have hop : o = 0#4 ∨ o = 1#4 ∨ o = 2#4 ∨ o = 3#4 ∨ o = 4#4 := by bv_omega
  rcases BitVec.eq_zero_or_eq_one b with rfl | rfl
  · rcases hop with rfl | rfl | rfl | rfl | rfl
    · exact .inl ⟨.nop, rfl, rfl⟩
    · exact .inl ⟨.packM, rfl, rfl⟩
    · exact .inl ⟨.compress, rfl, rfl⟩
    · exact .inl ⟨.scaleM, rfl, rfl⟩
    · exact .inl ⟨.deriveM, rfl, rfl⟩
  · rcases hop with rfl | rfl | rfl | rfl | rfl
    · exact .inr ⟨rfl, rfl⟩
    · exact .inl ⟨.packS, rfl, rfl⟩
    · exact .inl ⟨.khash, rfl, rfl⟩
    · exact .inl ⟨.scaleS, rfl, rfl⟩
    · exact .inl ⟨.deriveS, rfl, rfl⟩

/-! ### The classes of illegal words (rule R58) -/

/-- The words of a class, made disjoint: a word with a reserved bit set is in the first whatever its `OP`. That these
are the decoder's own classes is `decode_eq_error_iff`. -/
def InClass (w : Word) : IllegalWord → Prop
  | .reservedBits => reservedField w ≠ 0#27
  | .reservedOp => reservedField w = 0#27 ∧ 5 ≤ (opField w).toNat
  | .nopOfBackendOne => w = 0x00000010#32

/-- Every word is the word of a command or in a class. -/
theorem eq_encode_or_inClass (w : Word) : (∃ i, w = encode i) ∨ ∃ e, InClass w e := by
  by_cases hrsv : reservedField w = 0#27
  · by_cases hop : 5 ≤ (opField w).toNat
    · exact .inr ⟨.reservedOp, hrsv, hop⟩
    · rcases command_of_fields (backendField w) (Nat.lt_of_not_le hop) with ⟨i, hb, ho⟩ | ⟨hb, ho⟩
      · exact .inl ⟨i, eq_of_fields hrsv hb.symm ho.symm⟩
      · exact .inr ⟨.nopOfBackendOne, eq_of_fields hrsv hb ho⟩
  · exact .inr ⟨.reservedBits, hrsv⟩

theorem decode_of_inClass {w : Word} {e : IllegalWord} (h : InClass w e) : decode w = .error e := by
  cases e with
  | reservedBits => exact if_pos h
  | reservedOp =>
    obtain ⟨hrsv, hop⟩ := h
    have hne (o : BitVec 4) (ho : o.toNat < 5) : opField w ≠ o := by
      rintro rfl
      exact absurd ho (Nat.not_lt.2 hop)
    simp [decode, hrsv, hne]
  | nopOfBackendOne =>
    obtain rfl : w = 0x00000010#32 := h
    decide

/-! ### The decoder's answers (rule R63) -/

theorem decode_eq_ok_iff {w : Word} {i : Instr} : decode w = .ok i ↔ w = encode i := by
  constructor
  · intro hdec
    rcases eq_encode_or_inClass w with ⟨j, rfl⟩ | ⟨e, he⟩
    · rw [decode_encode] at hdec
      rw [Except.ok.inj hdec]
    · rw [decode_of_inClass he] at hdec
      cases hdec
  · rintro rfl
    exact decode_encode i

theorem decode_eq_error_iff {w : Word} {e : IllegalWord} : decode w = .error e ↔ InClass w e := by
  refine ⟨fun hdec => ?_, decode_of_inClass⟩
  rcases eq_encode_or_inClass w with ⟨i, rfl⟩ | ⟨e', he⟩
  · rw [decode_encode] at hdec
    cases hdec
  · rw [decode_of_inClass he] at hdec
    exact Except.error.inj hdec ▸ he

/-- A word decodes to no command exactly when the decoder names its class. -/
theorem decode_ne_ok_iff {w : Word} : (∀ i, decode w ≠ .ok i) ↔ ∃ e, InClass w e := by
  simp only [← decode_eq_error_iff]
  cases decode w <;> simp

/-- The classes together, without the order in which the decoder tests them. -/
theorem exists_inClass_iff {w : Word} : (∃ e, InClass w e) ↔
    reservedField w ≠ 0#27 ∨ 5 ≤ (opField w).toNat ∨ w = 0x00000010#32 := by
  constructor
  · rintro ⟨e, he⟩
    cases e with
    | reservedBits => exact .inl he
    | reservedOp => exact .inr (.inl he.2)
    | nopOfBackendOne => exact .inr (.inr he)
  · rintro (hrsv | hop | hw)
    · exact ⟨.reservedBits, hrsv⟩
    · by_cases hrsv : reservedField w = 0#27
      · exact ⟨.reservedOp, hrsv, hop⟩
      · exact ⟨.reservedBits, hrsv⟩
    · exact ⟨.nopOfBackendOne, hw⟩

/-! ### The obligations -/

/-- Settles O4. -/
theorem nineCommandWords : Obligations.NineCommandWords :=
  ⟨decode_encode .nop, decode_encode .packM, decode_encode .packS, decode_encode .compress, decode_encode .khash,
    decode_encode .scaleM, decode_encode .scaleS, decode_encode .deriveM, decode_encode .deriveS⟩

/-- Settles O5: a word with no command is in one of the decoder's classes, which together are the three of rule R58. -/
theorem illegalWordsByClass : Obligations.IllegalWordsByClass :=
  fun _ => decode_ne_ok_iff.trans exists_inClass_iff

/-- Settles O3: a word that is no command's word is in a class of illegal words, so it decodes to an error. -/
theorem decodeExactlyTheEncodedWord : Obligations.DecodeExactlyTheEncodedWord :=
  fun _ _ => decode_eq_ok_iff

end Sys2Proof.Machine

/-!
The statements about the compression primitive and `COMPRESS` (spec/40_compress.md), in layers: the rotation; the four
rounds that every table of a step is laid out by; one step, which reads the rule's tables and can be undone; then all
the steps, and the obligations.
-/

namespace Sys2Proof.Machine

/-! ### The rotation of a word -/

/-- Rotating on by what is left of the word brings every bit back. -/
theorem rotl32_rotl32_sub (x : Word) {n : Nat} (hn : n ≤ 32) : rotl32 (rotl32 x n) (32 - n) = x := by
  ext i hi
  simp only [rotl32, BitVec.getElem_or, BitVec.getElem_shiftLeft, BitVec.getElem_ushiftRight, BitVec.getLsbD_or,
    BitVec.getLsbD_shiftLeft, BitVec.getLsbD_ushiftRight]
  have hover : x.getLsbD (32 - n + (n + i)) = false := BitVec.getLsbD_of_ge x _ (by omega)
  by_cases h : i < 32 - n
  · have hback : n + i - n = i := by omega
    have hlt : n + i < 32 := by omega
    simp [h, Nat.sub_sub_self hn, hback, hlt, hover, BitVec.getLsbD_eq_getElem hi]
  · have hback : 32 - n + (i - (32 - n)) = i := by omega
    have hlow : i - (32 - n) < n := by omega
    simp [h, Nat.sub_sub_self hn, hback, hlow, hover, BitVec.getLsbD_eq_getElem hi]

/-! ### The four rounds (rule R65)

The model's tables test the step number against 16, 32 and 48; the rule's are read at the round `i div 16`. -/

/-- The row of a table of four rows for the round of step `i`. -/
def byRound {α : Type} (i : Nat) (row0 row1 row2 row3 : α) : α :=
  match i / 16 with
  | 0 => row0
  | 1 => row1
  | 2 => row2
  | _ => row3

/-- The model's tests find the row of the round. -/
theorem ite_eq_byRound {α : Type} (i : Nat) (row0 row1 row2 row3 : α) :
    (if i < 16 then row0 else if i < 32 then row1 else if i < 48 then row2 else row3) =
      byRound i row0 row1 row2 row3 := by
  unfold byRound
  match hr : i / 16 with
  | 0 => exact if_pos (by omega)
  | 1 => exact (if_neg (by omega)).trans (if_pos (by omega))
  | 2 => exact (if_neg (by omega)).trans ((if_neg (by omega)).trans (if_pos (by omega)))
  | _ + 3 => exact (if_neg (by omega)).trans ((if_neg (by omega)).trans (if_neg (by omega)))

theorem roundFunction_eq_byRound (i : Nat) (b c d : Word) :
    roundFunction i b c d =
      byRound i ((b &&& c) ||| (~~~b &&& d)) ((d &&& b) ||| (~~~d &&& c)) (b ^^^ c ^^^ d) (c ^^^ (b ||| ~~~d)) :=
  ite_eq_byRound i _ _ _ _

/-- In round 0 the step number is itself the index. -/
theorem blockIndex_eq_byRound (i : Nat) :
    (blockIndex i : Nat) = byRound i i ((5 * i + 1) % 16) ((3 * i + 5) % 16) (7 * i % 16) := by
  rw [← ite_eq_byRound]
  unfold blockIndex
  split
  next h => exact Nat.mod_eq_of_lt h
  next => split_ifs <;> rfl

/-- The rotation amounts of the 64 steps are those of the rule's table, read row after row. -/
theorem rotationAmount_eq_getD : ∀ i < 64, rotationAmount i =
    [7, 12, 17, 22, 5, 9, 14, 20, 4, 11, 16, 23, 6, 10, 15, 21].getD (4 * (i / 16) + i % 4) 0 := by
  decide

/-- No step rotates by the whole word or more. -/
theorem rotationAmount_le (i : Nat) : rotationAmount i ≤ 32 := by
  have row (v : Vector Nat 4) (hv : ∀ k : Fin 4, v[k] ≤ 32) : v[Fin.ofNat 4 i] ≤ 32 := hv _
  unfold rotationAmount roundRotations
  split_ifs
  all_goals exact row _ (by decide)

/-! ### One step -/

section
variable (x : Vector Word 16) (i : Nat) (w : Work)

/-- A step from what its function, block index and rotation amount are. -/
theorem compressStep_eq {x : Vector Word 16} {i : Nat} {w : Work} {f : Word} {g r : Nat}
    (hf : roundFunction i w.b w.c w.d = f) (hg : blockIndex i = g) (hr : rotationAmount i = r) :
    compressStep x i w =
      { a := w.d, b := w.b + rotl32 (w.a + f + additiveConstant i + x.toList.getD g 0#32) r, c := w.b, d := w.c } := by
  subst hf hg hr
  simp [compressStep]

/-- Step `i` undone: the old `b`, `c`, `d` are the new `c`, `d`, `a`, which gives the round function's value again, so
the old `a` is what is left of the sum turned back. -/
def undoStep : Work :=
  { a := rotl32 (w.b - w.c) (32 - rotationAmount i) - x[blockIndex i] - additiveConstant i - roundFunction i w.c w.d w.a
    b := w.c, c := w.d, d := w.a }

theorem undoStep_compressStep : undoStep x i (compressStep x i w) = w := by
  simp only [undoStep, compressStep, add_sub_cancel_left, rotl32_rotl32_sub _ (rotationAmount_le i),
    add_sub_cancel_right]

theorem compressStep_undoStep : compressStep x i (undoStep x i w) = w := by
  have hturn := rotl32_rotl32_sub (w.b - w.c) (Nat.sub_le 32 (rotationAmount i))
  rw [Nat.sub_sub_self (rotationAmount_le i)] at hturn
  simp only [undoStep, compressStep, sub_add_cancel, hturn, add_sub_cancel]

theorem compressStep_bijective : Function.Bijective (compressStep x i) :=
  Function.bijective_iff_has_inverse.2 ⟨undoStep x i, undoStep_compressStep x i, compressStep_undoStep x i⟩

end

/-! ### The obligations -/

/-- Settles O14: the working words start from `H`, and `COMPRESS` stores `H` alone. -/
theorem compressAddsTheWorkingWords : Obligations.CompressAddsTheWorkingWords :=
  fun s => exec_eq_next .compress s

/-- Settles O15: the model's tables are the rule's, read at the round of the step. -/
theorem compressStepByRound : Obligations.CompressStepByRound :=
  fun _ _ => ⟨rfl, fun i hi =>
    compressStep_eq (roundFunction_eq_byRound i _ _ _) (blockIndex_eq_byRound i) (rotationAmount_eq_getD i hi)⟩

/-- Settles O16, by induction on the number of steps: each step can be undone. -/
theorem compressStepsArePermutations : Obligations.CompressStepsArePermutations := by
  intro x n
  induction n with
  | zero => exact Function.bijective_id
  | succ n ih => exact (compressStep_bijective x n).comp ih

end Sys2Proof.Machine

/-!
The statements about the short-input keyed hash and `KHASH` (spec/41_khash.md), in layers: `SipRound` and its inverse;
the stages of the hash; the bytes of the key and of the message as words of their registers; the digest in terms of the
registers; then the obligations.
-/

namespace Sys2Proof.Machine

/-! ### `SipRound` (rule R75) -/

section
variable {w : Nat} (x : BitVec w) (n : Nat)

/-- Rotating back brings every bit back. -/
theorem rotateRight_rotateLeft : (x.rotateLeft n).rotateRight n = x := by
  ext i hi
  have hmod : n % w < w := Nat.mod_lt n (by omega)
  rw [BitVec.getElem_rotateRight]
  split <;> rw [BitVec.getElem_rotateLeft]
  next => simp
  next => rw [dif_pos (by omega)]; congr 1; omega

theorem rotateLeft_rotateRight : (x.rotateRight n).rotateLeft n = x := by
  ext i hi
  have hmod : n % w < w := Nat.mod_lt n (by omega)
  rw [BitVec.getElem_rotateLeft]
  split <;> rw [BitVec.getElem_rotateRight]
  next => simp
  next => rw [dif_pos (by omega)]; congr 1; omega

end

/-- The model's rotation is the bit vectors' own. -/
theorem rotl64_eq_rotateLeft (x : DWord) {n : Nat} (hn : n < 64) : rotl64 x n = x.rotateLeft n := by
  rw [rotl64, BitVec.rotateLeft_def, Nat.mod_eq_of_lt hn]

/-- `SipRound` undone: its fourteen operations from the last to the first, each turned back. -/
def undoSipRound (v : SipState) : SipState :=
  let v2 := v.v2.rotateRight 32
  let v1 := v.v1 ^^^ v2
  let v1 := v1.rotateRight 17
  let v2 := v2 - v1
  let v3 := v.v3 ^^^ v.v0
  let v3 := v3.rotateRight 21
  let v0 := v.v0 - v3
  let v3 := v3 ^^^ v2
  let v3 := v3.rotateRight 16
  let v2 := v2 - v3
  let v0 := v0.rotateRight 32
  let v1 := v1 ^^^ v0
  let v1 := v1.rotateRight 13
  let v0 := v0 - v1
  { v0 := v0, v1 := v1, v2 := v2, v3 := v3 }

theorem undoSipRound_sipRound (v : SipState) : undoSipRound (sipRound v) = v := by
  simp (disch := decide) only [undoSipRound, sipRound, rotl64_eq_rotateLeft, rotateRight_rotateLeft,
    BitVec.xor_assoc, BitVec.xor_self, BitVec.xor_zero, add_sub_cancel_right]

theorem sipRound_undoSipRound (v : SipState) : sipRound (undoSipRound v) = v := by
  simp (disch := decide) only [undoSipRound, sipRound, rotl64_eq_rotateLeft, rotateLeft_rotateRight,
    BitVec.xor_assoc, BitVec.xor_self, BitVec.xor_zero, sub_add_cancel]

/-! ### The stages of the hash (rules R74, R76, R78 and R79) -/

/-- One word goes into `v3` before the rounds and into `v0` after them. -/
theorem inject_eq (c : Nat) (v : SipState) (m : DWord) :
    inject c v m =
      let u := sipRound^[c] { v with v3 := v.v3 ^^^ m }
      { u with v0 := u.v0 ^^^ m } := by
  rw [inject, sipRounds_eq_iterate]

/-! ### The bytes of registers as 64-bit words (rules R41, R73, R76 and R78) -/

/-- `LE64` from byte `8j` of a buffer on is its words `2j+1` and `2j`; the words past its end count as zero. -/
theorem le64_drop_flatMap_wordBytes (ws : List Word) (j : Nat) :
    le64 ((ws.flatMap (wordBytes .little)).drop (8 * j)) =
      (ws.getD (2 * j + 1) 0#32 ++ ws.getD (2 * j) 0#32 : BitVec (32 + 32)) := by
  have byte (k : Nat) (i : Fin 4) : (ws.flatMap (wordBytes .little)).getD (4 * k + i.val) 0#8 =
      (ws.getD k 0#32).extractLsb' (8 * i.val) 8 := by
    rw [List.getD_eq_getElem?_getD, getElem?_flatMap_wordBytes, List.getD_eq_getElem?_getD]
    cases ws[k]? <;> simp
  apply BitVec.eq_of_getLsbD_eq
  intro i hi
  have hplace : 8 * j + i / 8 = 4 * (2 * j + i / 32) + (Fin.ofNat 4 (i / 8)).val := by
    simp only [Fin.ofNat]; omega
  have hbit : 8 * (i / 8 % 4) + i % 8 = i % 32 := by omega
  rw [getLsbD_le64 _ hi, List.getD_eq_getElem?_getD, List.getElem?_drop, ← List.getD_eq_getElem?_getD, hplace, byte,
    BitVec.getLsbD_extractLsb', BitVec.getLsbD_append]
  simp only [Fin.ofNat, hbit, Nat.mod_lt i (show 0 < 8 by decide), decide_true, Bool.true_and]
  split_ifs with hlow
  · rw [Nat.div_eq_of_lt hlow, Nat.mod_eq_of_lt hlow, Nat.add_zero]
  · rw [show i / 32 = 1 by omega, show i % 32 = i - 32 by omega]

section
variable (r : Regs)

theorem key_take_eight : le64 (r.key.take 8) = (r.secret[1] ++ r.secret[0] : BitVec (32 + 32)) := by
  rw [key_eq_words, ← le64_two_words]
  rfl

theorem key_drop_eight : le64 (r.key.drop 8) = (r.secret[3] ++ r.secret[2] : BitVec (32 + 32)) := by
  rw [key_eq_words, ← le64_two_words]
  rfl

/-- `MSG[2j+1] || MSG[2j]`, zero past the last register. -/
def Regs.messagePair (j : Nat) : DWord :=
  (r.msg.toList.getD (2 * j + 1) 0#32 ++ r.msg.toList.getD (2 * j) 0#32 : BitVec (32 + 32))

/-- The message from byte `8j` on, cut to `k` bytes: the low `k` bytes of the pair (rule R81). -/
theorem le64_messageBytes (j k : Nat) : le64 ((r.messageBytes.drop (8 * j)).take k) =
    r.messagePair j &&& BitVec.ofNat 64 (2 ^ (8 * k) - 1) := by
  rw [le64_take]
  exact congrArg (· &&& _) (le64_drop_flatMap_wordBytes r.msg.toList j)

theorem length_messageBytes : r.messageBytes.length = 64 := by
  simp [Regs.messageBytes, toList_sixteen, Config.byteView, wordBytes]

variable {r} (hlen : r.mlen.toNat ≤ 64)
include hlen

theorem length_message : r.message.length = r.mlen.toNat := by
  rw [Regs.message, List.length_take, length_messageBytes, Nat.min_eq_left hlen]

/-- The whole words of a legal message are the pairs of registers below it (rule R76). -/
theorem wholeWords_message : wholeWords r.message = (List.range (r.mlen.toNat / 8)).map r.messagePair := by
  rw [wholeWords, length_message hlen]
  refine List.map_congr_left fun j hj => ?_
  have hwhole : 8 ≤ r.mlen.toNat - 8 * j := by
    have := List.mem_range.1 hj
    omega
  rw [messageWord, Regs.message, List.drop_take, List.take_take, Nat.min_eq_left hwhole, le64_messageBytes]
  exact BitVec.and_allOnes

/-- The final block of a legal message: its length, and the low bytes of the pair it ends in (rule R78). -/
theorem finalBlock_message : finalBlock r.message = (BitVec.ofNat 64 r.mlen.toNat <<< 56) |||
    (r.messagePair (r.mlen.toNat / 8) &&& BitVec.ofNat 64 (2 ^ (8 * (r.mlen.toNat % 8)) - 1)) := by
  have hleft : r.mlen.toNat - 8 * (r.mlen.toNat / 8) = r.mlen.toNat % 8 := by omega
  rw [finalBlock, length_message hlen, Nat.mod_eq_of_lt (by omega), Regs.message, List.drop_take, hleft,
    le64_messageBytes]

/-- The digest of a legal message in terms of the registers. -/
theorem digest_eq_sipHash : r.digest =
    sipHash 2 4 (r.secret[1] ++ r.secret[0] : BitVec (32 + 32)) (r.secret[3] ++ r.secret[2] : BitVec (32 + 32))
      ((List.range (r.mlen.toNat / 8)).map r.messagePair ++ [(BitVec.ofNat 64 r.mlen.toNat <<< 56) |||
        (r.messagePair (r.mlen.toNat / 8) &&& BitVec.ofNat 64 (2 ^ (8 * (r.mlen.toNat % 8)) - 1))]) := by
  rw [Regs.digest, keyedHash, key_take_eight, key_drop_eight, wholeWords_message hlen, finalBlock_message hlen,
    Config.cRounds, Config.dRounds]

end

/-! ### `KHASH` on a legal length (rules R80 and R81) -/

theorem storeDigest_eq (d : DWord) (r : Regs) :
    storeDigest d r = { r with dLo := d.extractLsb' 0 32, dHi := d.extractLsb' 32 32 } := by
  rw [← digestWord_low, ← digestWord_high]
  rfl

theorem exec_khash_of_legal {s : State} (hlen : s.regs.mlen.toNat ≤ 64) :
    exec .khash s = .next (s.withRegs (storeDigest s.regs.digest s.regs)) :=
  (exec_eq_next .khash s).trans (congrArg _ (khash_withRegs s hlen))

/-- Two message buffers that agree below the same legal length hold the same message. -/
theorem message_congr {r r' : Regs} (hmlen : r.mlen = r'.mlen) (hlen : r.mlen.toNat ≤ 64)
    (hbytes : ∀ k < r.mlen.toNat, r.messageBytes.getD k 0#8 = r'.messageBytes.getD k 0#8) :
    r.message = r'.message := by
  have hlength : r.message.length = r'.message.length := by
    rw [length_message hlen, length_message (hmlen ▸ hlen), hmlen]
  refine List.ext_getElem hlength fun k hk hk' => ?_
  have hbelow : k < r.mlen.toNat := length_message hlen ▸ hk
  simpa [Regs.message, length_messageBytes, show k < 64 by omega] using hbytes k hbelow

/-- The digest depends on the four key registers and the message. -/
theorem digest_congr {r r' : Regs} (hkey : ∀ k : Fin 4, r.secret[k.val] = r'.secret[k.val])
    (hmessage : r.message = r'.message) : r.digest = r'.digest := by
  have hagree : AgreeOn [.s 0, .s 1, .s 2, .s 3] r r' := by
    simpa [AgreeOn, readReg, Fin.forall_fin_succ] using hkey
  rw [Regs.digest, Regs.digest, hagree.key, hmessage]

/-! ### The obligations -/

/-- Settles O17: the fourteen operations can be undone from the last to the first. -/
theorem sipRoundIsAPermutation : Obligations.SipRoundIsAPermutation :=
  Function.bijective_iff_has_inverse.2 ⟨undoSipRound, undoSipRound_sipRound, sipRound_undoSipRound⟩

/-- Settles O18: the key is the bytes of the first four secret words. -/
theorem keyIsTheLeadingSecretBytes : Obligations.KeyIsTheLeadingSecretBytes :=
  fun r => ⟨key_take_eight r, key_drop_eight r, rfl⟩

/-- Settles O19: a legal `KHASH` stores the digest, whose words are those of the registers. -/
theorem khashHashesTheMessageRegisters : Obligations.KhashHashesTheMessageRegisters := by
  intro s hlen
  rw [exec_khash_of_legal hlen, storeDigest_eq, digest_eq_sipHash hlen]
  rfl

/-- Settles O21: the digest depends on the key registers and the message, whose bytes are those below `MLEN`. -/
theorem khashIgnoresBytesBeyondLength : Obligations.KhashIgnoresBytesBeyondLength := by
  intro s s' t t' hmlen hlen hkey hbytes ht ht'
  have hdigest : s.regs.digest = s'.regs.digest := digest_congr hkey (message_congr hmlen hlen hbytes)
  obtain rfl := Host.Outcome.next.inj ((exec_khash_of_legal hlen).symm.trans ht)
  obtain rfl := Host.Outcome.next.inj ((exec_khash_of_legal (hmlen ▸ hlen)).symm.trans ht')
  simp only [State.withRegs_regs, storeDigest_dLo, storeDigest_dHi, hdigest, and_self]

/-- Settles O54: the model's rounds are `SipRound` iterated, in each injection and at the end. -/
theorem sipHashByItsStages : Obligations.SipHashByItsStages := by
  refine ⟨fun c d k0 k1 blocks => ?_, rfl, rfl⟩
  rw [sipHash, funext₂ (inject_eq c), sipFinish, sipRounds_eq_iterate]
  rfl

/-- Settles O53: the rotations are by less than a word, so they are the bit vectors' own. -/
theorem sipRoundByItsFourteenOperations : Obligations.SipRoundByItsFourteenOperations := by
  refine ⟨fun a b c d => ?_, by decide, by decide⟩
  simp (disch := decide) only [sipRound, rotl64_eq_rotateLeft]

end Sys2Proof.Machine

/-!
The statements about the tuple packers `PACK.M` and `PACK.S` (spec/42_pack.md), in layers: the pair of ports as one
word; the packed values determine the tuple; what `PACK.S` leaves in the message buffer; a command run twice; then the
obligations.
-/

namespace Sys2Proof.Machine

/-! ### The pair of ports (rules R87 and R88) -/

section
variable (a b : Half)

/-- A half word shifted into the high half leaves the low half free, so adding it to another is a bitwise or. -/
theorem shiftLeft_setWidth_and_setWidth : (a.setWidth 32 <<< 16) &&& b.setWidth 32 = (0#32 : Word) := by
  apply BitVec.eq_of_getLsbD_eq
  intro i hi
  rw [BitVec.getLsbD_and, BitVec.getLsbD_shiftLeft, BitVec.getLsbD_setWidth, BitVec.getLsbD_zero]
  by_cases hlow : i < 16
  · simp [hlow]
  · simp [BitVec.getLsbD_of_ge b i (Nat.le_of_not_lt hlow)]

theorem append_half_eq_shiftLeft_or : (a ++ b : Word) = (a.setWidth 32 <<< 16) ||| b.setWidth 32 := by
  rw [← BitVec.setWidth_append_eq_shiftLeft_setWidth_or]
  exact (BitVec.setWidth_eq _).symm

theorem append_half_eq_shiftLeft_add : (a ++ b : Word) = (a.setWidth 32 <<< 16) + b.setWidth 32 := by
  rw [BitVec.add_eq_or_of_and_eq_zero _ _ (shiftLeft_setWidth_and_setWidth a b), append_half_eq_shiftLeft_or]

/-- Swapping the bytes of a pair of half words swaps the pair and the bytes of each. -/
theorem bswap32_append_half : bswap32 (a ++ b) =
    b.extractLsb' 0 8 ++ b.extractLsb' 8 8 ++ a.extractLsb' 0 8 ++ a.extractLsb' 8 8 := by
  simp (disch := decide) only [bswap32, BitVec.extractLsb'_append_eq_of_add_le, BitVec.extractLsb'_append_eq_of_le,
    Nat.reduceSub]

end

/-- The pair determines both ports. -/
theorem append_half_inj {a b a' b' : Half} (h : (a ++ b : Word) = a' ++ b') : a = a' ∧ b = b' :=
  ⟨by rw [← extractLsb'_append_high a b, h, extractLsb'_append_high],
    by rw [← extractLsb'_append_low a b, h, extractLsb'_append_low]⟩

/-! ### The packed values determine the tuple (rule R91) -/

theorem wordBytes_big_injective : Function.Injective (wordBytes .big) := by
  intro v w h
  obtain ⟨h3, h2, h1, h0⟩ : v.extractLsb' 24 8 = w.extractLsb' 24 8 ∧ v.extractLsb' 16 8 = w.extractLsb' 16 8 ∧
      v.extractLsb' 8 8 = w.extractLsb' 8 8 ∧ v.extractLsb' 0 8 = w.extractLsb' 0 8 := by
    simpa [wordBytes] using h
  rw [← wordOfBytes_little_bytes v, h0, h1, h2, h3, wordOfBytes_little_bytes]

/-- A half word is its high byte above its low byte. -/
theorem high_byte_append_low_byte (v : Half) : v.extractLsb' 8 8 ++ v.extractLsb' 0 8 = v :=
  (BitVec.extractLsb'_append_extractLsb'_eq_extractLsb' (x := v) (start₁ := 0) rfl).trans BitVec.extractLsb'_eq_self

theorem halfBytes_big_injective : Function.Injective (halfBytes .big) := by
  intro v w h
  obtain ⟨h1, h0⟩ : v.extractLsb' 8 8 = w.extractLsb' 8 8 ∧ v.extractLsb' 0 8 = w.extractLsb' 0 8 := by
    simpa [halfBytes] using h
  rw [← high_byte_append_low_byte v, h0, h1, high_byte_append_low_byte]

section
variable {r r' : Regs}

/-- The four slots of `PACK.M` hold the tuple. -/
theorem tuple_eq_of_packM_h_eq (h : (packM r).h = (packM r').h) :
    r.saddr = r'.saddr ∧ r.daddr = r'.daddr ∧ r.sport = r'.sport ∧ r.dport = r'.dport := by
  rw [packM_h, packM_h] at h
  have hsaddr : r.saddr = r'.saddr := congrArg (·[0]) h
  have hdaddr : r.daddr = r'.daddr := congrArg (·[1]) h
  have hports : r.ports = r'.ports := congrArg (·[2]) h
  exact ⟨hsaddr, hdaddr, append_half_inj hports⟩

/-- Each field has its own place among the 16 bytes of `PACK.S`. -/
theorem tuple_eq_of_packedBytes_eq (h : packedBytes r = packedBytes r') :
    r.saddr = r'.saddr ∧ r.daddr = r'.daddr ∧ r.sport = r'.sport ∧ r.dport = r'.dport := by
  obtain ⟨hfields, -⟩ := List.append_inj' h rfl
  obtain ⟨hfields, hdport⟩ := List.append_inj' hfields rfl
  obtain ⟨hfields, hsport⟩ := List.append_inj' hfields rfl
  obtain ⟨hsaddr, hdaddr⟩ := List.append_inj' hfields rfl
  exact ⟨wordBytes_big_injective hsaddr, wordBytes_big_injective hdaddr, halfBytes_big_injective hsport,
    halfBytes_big_injective hdport⟩

end

/-! ### The message buffer after `PACK.S` (rules R88 and R90) -/

section
variable (r : Regs)

/-- `PACK.S` in whole registers: four words with their bytes swapped, and the length. -/
theorem packS_eq : packS r = { r with
    msg := (((r.msg.set 0 (bswap32 r.saddr)).set 1 (bswap32 r.daddr)).set 2 (bswap32 r.ports)).set 3
      (bswap32 r.designated)
    mlen := 16#7 } := by
  rw [Regs.ports, bswap32_append_half]
  rfl

theorem packS_messageBytes_take : (packS r).messageBytes.take 16 = packedBytes r := packS_message r

/-- From byte 16 on a buffer is the bytes of its registers from the fifth on (rule R41). -/
theorem drop_sixteen_bytes (m : Vector Word 16) :
    (m.toList.flatMap (wordBytes .little)).drop 16 = (m.toList.drop 4).flatMap (wordBytes .little) := by
  simp [toList_sixteen, wordBytes]

theorem drop_four_storePacked (bytes : List Byte) (m : Vector Word 16) :
    (storePacked bytes m).toList.drop 4 = m.toList.drop 4 := by
  simp (disch := decide) only [storePacked, Vector.toList_set, List.drop_set_of_lt]

theorem packS_messageBytes_drop : (packS r).messageBytes.drop 16 = r.messageBytes.drop 16 := by
  have hdrop (r : Regs) : r.messageBytes.drop 16 = _ := drop_sixteen_bytes r.msg
  rw [hdrop, hdrop, packS_msg, drop_four_storePacked]

/-- `PACK.S` replaces the first 16 message bytes and keeps the others. -/
theorem packS_messageBytes : (packS r).messageBytes = packedBytes r ++ r.messageBytes.drop 16 := by
  rw [← packS_messageBytes_take, ← packS_messageBytes_drop, List.take_append_drop]

end

/-! ### A command run twice (rules R40 and R92) -/

/-- Every command but `KHASH`, which can report, changes the registers only. -/
theorem result_eq_withRegs {i : Instr} (hi : i ≠ .khash) (s : State) : result i s = s.withRegs (result i s).regs := by
  cases i with
  | khash => exact absurd rfl hi
  | deriveS => rw [result, deriveS_eq, State.withRegs_regs]
  | _ => rfl

/-- A command that reads none of what it writes, and reports nothing, answers the same state the second time. -/
theorem exec_next_again {i : Instr} (hcompress : i ≠ .compress) (hkhash : i ≠ .khash) {s t : State}
    (h : exec i s = .next t) : exec i t = .next t := by
  obtain rfl := exec_next h
  have hregs : (result i (result i s)).regs = (result i s).regs :=
    result_result_regs hcompress fun hk => absurd hk hkhash
  rw [exec_eq_next, result_eq_withRegs hkhash (result i s), hregs, State.withRegs_self]

/-! ### The obligations: tier 2 -/

/-- Settles O11: the stored words are the packed bytes taken four by four, lowest byte first. -/
theorem packSSwapsIntoMessageWords : Obligations.PackSSwapsIntoMessageWords := by
  intro s
  have hexec := exec_eq_next .packS s
  refine ⟨⟨_, hexec, ?_, packS_messageBytes_take s.regs, exec_next_again (by decide) (by decide) hexec⟩,
    (bswap32_append_half _ _).symm, rfl⟩
  rw [← bswap32_append_half]
  exact congrArg s.withRegs (packS_eq s.regs)

/-- Settles O12: the packed bytes, field by field, and the bytes kept. -/
theorem packSByteLayout : Obligations.PackSByteLayout := by
  intro s t h
  obtain rfl := exec_next h
  exact packS_messageBytes s.regs

/-- Settles O13: each packed value is read back field by field. -/
theorem packersAreInjectiveInTheTuple : Obligations.PackersAreInjectiveInTheTuple := by
  rintro s s' t t' (⟨ht, ht', hh⟩ | ⟨ht, ht', hbytes⟩)
  · obtain rfl := exec_next ht
    obtain rfl := exec_next ht'
    exact tuple_eq_of_packM_h_eq hh
  · obtain rfl := exec_next ht
    obtain rfl := exec_next ht'
    have hpacked : packedBytes s.regs = packedBytes s'.regs :=
      (packS_messageBytes_take s.regs).symm.trans (hbytes.trans (packS_messageBytes_take s'.regs))
    exact tuple_eq_of_packedBytes_eq hpacked

/-! ### The obligations: tier 1 -/

/-- Settles O10: the words go in as they stand, and the two ports share no bit of their slot. -/
theorem packMPlacesRawWords : Obligations.PackMPlacesRawWords :=
  fun s => ⟨exec_eq_next .packM s, append_half_eq_shiftLeft_add _ _, append_half_eq_shiftLeft_or _ _,
    fun _ ht => exec_next_again (by decide) (by decide) ht, rfl⟩

end Sys2Proof.Machine

/-!
The statements about the time-scaled offset combiner and the commands `SCALE.M` and `SCALE.S` (spec/43_scale.md), in
layers: the 32 bits of the tick that are added; how far two results for one base lie apart; then the obligations.
-/

namespace Sys2Proof.Machine

/-! ### The bits of the tick that are added (rules R94 and R98) -/

theorem tickOffset_eq_extractLsb' (t : DWord) : tickOffset t = t.extractLsb' 6 32 :=
  BitVec.setWidth_ushiftRight_eq_extractLsb

theorem tickOffset_eq_ofNat (t : DWord) : tickOffset t = BitVec.ofNat 32 (t.toNat / 64) := by
  apply BitVec.eq_of_toNat_eq
  rw [tickOffset_eq_extractLsb', BitVec.extractLsb'_toNat, BitVec.toNat_ofNat, Nat.shiftRight_eq_div_pow]

@[simp] theorem scale_zero (base : Word) : scale base 0#64 = base := BitVec.add_zero base

/-- The added bits lie across the two tick registers: six of the high one above 26 of the low one. -/
theorem tick_extractLsb' (r : Regs) :
    r.tick.extractLsb' 6 32 = (r.tickHi.extractLsb' 0 6 ++ r.tickLo.extractLsb' 6 26 : BitVec (6 + 26)) := by
  have hsplit : r.tick.extractLsb' 6 32 = (r.tick.extractLsb' 32 6 ++ r.tick.extractLsb' 6 26 : BitVec (6 + 26)) :=
    (BitVec.extractLsb'_append_extractLsb'_eq_extractLsb' (len₂ := 6) (len₁ := 26) rfl).symm
  have hhigh : r.tick.extractLsb' 32 6 = r.tickHi.extractLsb' 0 6 := BitVec.extractLsb'_append_eq_of_le (Nat.le_refl 32)
  have hlow : r.tick.extractLsb' 6 26 = r.tickLo.extractLsb' 6 26 := BitVec.extractLsb'_append_eq_of_add_le (by decide)
  rw [hsplit, hhigh, hlow]

theorem tick_eq_zero {r : Regs} (hhi : r.tickHi = 0#32) (hlo : r.tickLo = 0#32) : r.tick = 0#64 := by
  rw [Regs.tick, hhi, hlo]
  rfl

/-! ### How far two results for one base lie apart (rule R99) -/

/-- The base cancels: the results differ by the buckets of 64 between the two ticks. -/
theorem scale_add_sub_scale (base : Word) {t d : DWord} (h : t.toNat + d.toNat < 2 ^ 64) :
    scale base (t + d) - scale base t = BitVec.ofNat 32 ((t.toNat + d.toNat) / 64 - t.toNat / 64) := by
  have hle : t.toNat / 64 ≤ (t.toNat + d.toNat) / 64 := Nat.div_le_div_right (Nat.le_add_right _ _)
  calc scale base (t + d) - scale base t
      = tickOffset (t + d) - tickOffset t := add_sub_add_left_eq_sub _ _ base
    _ = BitVec.ofNat 32 ((t.toNat + d.toNat) / 64) - BitVec.ofNat 32 (t.toNat / 64) := by
      rw [tickOffset_eq_ofNat, tickOffset_eq_ofNat, BitVec.toNat_add_of_lt h]
    _ = BitVec.ofNat 32 ((t.toNat + d.toNat) / 64 - t.toNat / 64) := by
      rw [sub_eq_iff_eq_add, ← BitVec.ofNat_add, Nat.sub_add_cancel hle]

/-- The number of buckets of 64 between two ticks, with the carry out of their low six bits. -/
theorem add_div_64_sub_div_64 (t d : Nat) :
    (t + d) / 64 - t / 64 = d / 64 + if 64 ≤ t % 64 + d % 64 then 1 else 0 := by
  rw [Nat.add_div (by decide), Nat.add_assoc, Nat.add_sub_cancel_left]

/-- At the limit the tick grows by whole buckets, so no carry comes on top (rule R101). -/
theorem add_div_64_sub_div_64_lt {t d : Nat} (h : d ≤ 2 ^ 37 - 64) : (t + d) / 64 - t / 64 < 2 ^ 31 := by
  rw [add_div_64_sub_div_64]
  rcases Nat.lt_or_eq_of_le h with hlt | rfl
  · have hd : d / 64 < 2 ^ 31 - 1 := by omega
    split <;> omega
  · have hcarry : ¬ 64 ≤ t % 64 + (2 ^ 37 - 64) % 64 := by omega
    rw [if_neg hcarry]
    decide

/-! ### The results of the two commands (rules R95 to R97) -/

theorem result_scaleM_seq (s : State) : (result .scaleM s).regs.seq = scale s.regs.h[0] s.regs.tick := by
  rw [result, State.withRegs_regs, scaleM_seq]

theorem scaleS_eq (r : Regs) : scaleS r = r.setSeq (scale r.dLo r.tick) := by
  rw [scaleS, digestBase_eq_dLo]

theorem result_scaleS_seq (s : State) : (result .scaleS s).regs.seq = scale s.regs.dLo s.regs.tick := by
  rw [result, State.withRegs_regs, scaleS_eq, Regs.setSeq_seq]

/-! ### The obligations: tier 2 -/

/-- Settles O24: the addend is the slice, and the slice lies across the two tick registers. -/
theorem onlyTickBits37To6Count : Obligations.OnlyTickBits37To6Count := by
  have hscale (base : Word) (t : DWord) : scale base t = base + t.extractLsb' 6 32 :=
    congrArg (base + ·) (tickOffset_eq_extractLsb' t)
  refine ⟨hscale, fun base t u h => ?_, tick_extractLsb'⟩
  rw [hscale, hscale, h]

/-- Settles O25: the base cancels, and a sum divided by 64 is the two quotients and the carry. -/
theorem driftLawWithCarry : Obligations.DriftLawWithCarry :=
  fun base t d h => ⟨scale_add_sub_scale base h, add_div_64_sub_div_64 t.toNat d.toNat⟩

/-! ### The obligations: tier 1 -/

/-- Settles O22: `SCALE.M` is the combiner on `H[0]`, written to `SEQ` alone. -/
theorem scaleMAddsTheShiftedTick : Obligations.ScaleMAddsTheShiftedTick :=
  fun s => ⟨rfl, exec_eq_next .scaleM s⟩

/-- Settles O23: `SCALE.S` is the combiner on `D_LO`, the first four digest bytes as a number. -/
theorem scaleSAddsTheShiftedTick : Obligations.ScaleSAddsTheShiftedTick :=
  fun s => ⟨rfl, (exec_eq_next .scaleS s).trans <| by rw [result, scaleS_eq]; rfl⟩

/-- Settles O26: a zero tick adds nothing to either base. -/
theorem zeroTickGivesTheBase : Obligations.ZeroTickGivesTheBase := by
  intro s hhi hlo
  have htick : s.regs.tick = 0#64 := tick_eq_zero hhi hlo
  refine ⟨⟨_, exec_eq_next .scaleM s, ?_⟩, ⟨_, exec_eq_next .scaleS s, ?_⟩⟩
  · rw [result_scaleM_seq, htick, scale_zero]
  · rw [result_scaleS_seq, htick, scale_zero]

/-- Settles O27: by the drift law the advance is a number of buckets below 2^31, which 32 bits hold. -/
theorem boundedAdvanceLooksLater : Obligations.BoundedAdvanceLooksLater := by
  intro base t d h hd
  rw [scale_add_sub_scale base h, BitVec.toNat_ofNat]
  exact (Nat.mod_le _ _).trans_lt (add_div_64_sub_div_64_lt hd)

end Sys2Proof.Machine

/-!
The statements about the sequence-number derivation and the commands `DERIVE.M` and `DERIVE.S` (spec/44_derive.md), in
layers: a sequence of command words written to `CMD`; `DERIVE.M` in whole registers; the words `DERIVE.S` hashes and the
registers it leaves; what a derivation reads and reports; then the obligations.
-/

namespace Sys2Proof.Machine

/-! ### A sequence of command words (rules R45 and R105) -/

section
variable (s : State) (es : List HostEvent)

theorem raise_withInputs (e : Report) : raise e (s.withInputs es) = (raise e s).withInputs es := by
  rw [raise, raise, State.withInputs_regs]
  split <;> rfl

theorem khash_withInputs : khash (s.withInputs es) = (khash s).withInputs es := by
  rw [khash, khash, State.withInputs_regs]
  split
  · exact raise_withInputs s es _
  · rfl

/-- A command does the same whatever accesses are still to come. -/
theorem result_withInputs (i : Instr) : result i (s.withInputs es) = (result i s).withInputs es := by
  cases i with
  | khash => exact khash_withInputs s es
  | deriveS =>
    rw [result, result, deriveS_eq, deriveS_eq, State.withInputs_regs]
    rfl
  | _ => rfl

/-- The step at a write of a command's word to `CMD`. -/
theorem step_asmCmd (i : Instr) : step (s.withInputs (asmCmd i ++ es)) = .next ((result i s).withInputs es) := by
  have hin : (s.withInputs (asmCmd i ++ es)).inputs = .regWrite 0#6 (encode i) :: es := rfl
  rw [step_of_inputs hin rfl, perform, regWrite_cmd, execute_of_decode _ _ (decode_encode i), exec_eq_next,
    result_withInputs, result_withInputs]
  rfl

end

/-- The state a sequence of commands leaves. -/
def results (is : List Instr) (s : State) : State := is.foldl (fun t i => result i t) s

/-- Commands written one after the other, with no other access between them, each find what the one before left. -/
theorem run_asmCmds (is : List Instr) (s : State) (rest : List HostEvent) :
    run is.length (s.withInputs (is.flatMap asmCmd ++ rest)) = .next ((results is s).withInputs rest) := by
  induction is generalizing s with
  | nil => exact run_zero _
  | cons i is ih =>
    rw [List.flatMap_cons, List.append_assoc, List.length_cons, run_succ (step_asmCmd s _ i), ih]
    rfl

theorem results_phasesM (s : State) : results [.packM, .compress, .scaleM] s = result .deriveM s := rfl

theorem results_phasesS (s : State) : results [.packS, .khash, .scaleS] s = result .deriveS s :=
  (deriveS_phases s).symm

/-! ### `DERIVE.M` in whole registers (rules R103 and R107) -/

theorem deriveM_eq (s : State) : deriveM s =
    let h' := compress #v[s.regs.saddr, s.regs.daddr, s.regs.ports, s.regs.designated] s.regs.secret
    s.withRegs { s.regs with h := h', seq := scale h'[0] s.regs.tick } := rfl

/-- The words put in are added to the working words after step 63 (rule R66). -/
theorem compress_words (a b c d : Word) (x : Vector Word 16) : compress #v[a, b, c, d] x =
    let w := compressSteps x ⟨a, b, c, d⟩ 64
    #v[a + w.a, b + w.b, c + w.c, d + w.d] := rfl

theorem scale_eq_add_extractLsb' (base : Word) (t : DWord) : scale base t = base + t.extractLsb' 6 32 :=
  congrArg (base + ·) (tickOffset_eq_extractLsb' t)

/-! ### `DERIVE.S` in whole registers (rules R104 and R107) -/

section
variable (r : Regs)

theorem packS_messagePair_zero :
    (packS r).messagePair 0 = (bswap32 r.daddr ++ bswap32 r.saddr : BitVec (32 + 32)) := by
  rw [packS_eq, Regs.messagePair, toList_sixteen]
  simp

theorem packS_messagePair_one :
    (packS r).messagePair 1 = (bswap32 r.designated ++ bswap32 r.ports : BitVec (32 + 32)) := by
  rw [packS_eq, Regs.messagePair, toList_sixteen]
  simp

/-- The packed tuple is two whole words, and no byte is left for the final block (rule R78). -/
theorem packS_digest : (packS r).digest =
    sipHash 2 4 (r.secret[1] ++ r.secret[0] : BitVec (32 + 32)) (r.secret[3] ++ r.secret[2] : BitVec (32 + 32))
      [(bswap32 r.daddr ++ bswap32 r.saddr : BitVec (32 + 32)),
       (bswap32 r.designated ++ bswap32 r.ports : BitVec (32 + 32)), 0x1000000000000000#64] := by
  have hlength : (packS r).mlen.toNat = 16 := by rw [packS_mlen]; rfl
  have hfinal (w : DWord) : (BitVec.ofNat 64 16 <<< 56) ||| (w &&& BitVec.ofNat 64 (2 ^ (8 * (16 % 8)) - 1)) =
      0x1000000000000000#64 := by simp
  rw [digest_eq_sipHash (packS_mlen_legal r), hlength, hfinal, packS_secret, ← packS_messagePair_zero,
    ← packS_messagePair_one]
  rfl

theorem scaleS_storeDigest_packS (d : DWord) : scaleS (storeDigest d (packS r)) = { r with
    msg := (((r.msg.set 0 (bswap32 r.saddr)).set 1 (bswap32 r.daddr)).set 2 (bswap32 r.ports)).set 3
      (bswap32 r.designated)
    mlen := 16#7
    dLo := d.extractLsb' 0 32
    dHi := d.extractLsb' 32 32
    seq := scale (d.extractLsb' 0 32) r.tick } := by
  rw [scaleS_eq, storeDigest_tick, packS_tick, storeDigest_eq, packS_eq]
  rfl

end

/-! ### What a derivation reads and reports (rules R106 and R108) -/

/-- Registers with the same tuple, secret and tick agree on all that a derivation reads. -/
theorem agreeOn_readSet_derive {r r' : Regs} {i : Instr} (hi : i = .deriveM ∨ i = .deriveS)
    (hsaddr : r.saddr = r'.saddr) (hdaddr : r.daddr = r'.daddr) (hsport : r.sport = r'.sport)
    (hdport : r.dport = r'.dport) (hsecret : r.secret = r'.secret) (htickLo : r.tickLo = r'.tickLo)
    (htickHi : r.tickHi = r'.tickHi) : AgreeOn (readSet i) r r' := by
  have htuple : AgreeOn tupleRegs r r' := by simp [AgreeOn, tupleRegs, readReg, hsaddr, hdaddr, hsport, hdport]
  have hwords : AgreeOn secretRegs r r' := by simp [AgreeOn, secretRegs, readReg, hsecret]
  have htick : AgreeOn tickRegs r r' := by simp [AgreeOn, tickRegs, readReg, htickLo, htickHi]
  have hall : AgreeOn (readSet .deriveM) r r' := agreeOn_append.2 ⟨agreeOn_append.2 ⟨htuple, hwords⟩, htick⟩
  rcases hi with rfl | rfl
  · exact hall
  · exact hall.mono (by decide)

/-- A derivation leaves `STATUS` and reports nothing: after `PACK.S` the length is legal. -/
theorem derive_status {i : Instr} (hi : i = .deriveM ∨ i = .deriveS) (s : State) :
    (result i s).regs.err = s.regs.err ∧ (result i s).regs.cause = s.regs.cause ∧
      (result i s).reports = s.reports := by
  rcases hi with rfl | rfl
  · simp [result, deriveM]
  · simp [result, deriveS_eq]

/-! ### The obligations: tier 2 -/

/-- Settles O29: the phases in whole registers, the compression and the packed message as words. -/
theorem derivationsInClosedForm : Obligations.DerivationsInClosedForm := by
  intro s
  refine ⟨(exec_eq_next .deriveM s).trans ?_, (exec_eq_next .deriveS s).trans ?_⟩
  · simp only [result, deriveM_eq, compress_words, scale_eq_add_extractLsb']
    rfl
  · rw [result, deriveS_eq, scaleS_storeDigest_packS, packS_digest, scale_eq_add_extractLsb']
    rfl

/-- Settles O32: the two states agree on the registers the derivation reads, so on those it writes. -/
theorem derivationDependsOnInputsOnly : Obligations.DerivationDependsOnInputsOnly := by
  intro s s' t t' i hi hsaddr hdaddr hsport hdport hsecret htickLo htickHi ht ht'
  have hread : AgreeOn (readSet i) s.regs s'.regs :=
    agreeOn_readSet_derive hi hsaddr hdaddr hsport hdport hsecret htickLo htickHi
  have hwritten (reg : Reg) (hreg : reg ∈ writeSet i) (hstatus : reg ≠ .status) :
      readReg reg t.regs = readReg reg t'.regs := by
    rw [exec_next ht, exec_next ht']
    exact readReg_result_congr hread (by rcases hi with rfl | rfl <;> simp) hreg hstatus
  refine ⟨hwritten .seq ?_ (by decide), ?_, ?_⟩
  · rcases hi with rfl | rfl <;> decide
  · rintro rfl
    exact AgreeOn.h_eq fun reg hreg => hwritten reg (List.mem_append_left _ hreg) (by rintro rfl; simp [hRegs] at hreg)
  · rintro rfl
    exact ⟨hwritten .dLo (by decide) (by decide), hwritten .dHi (by decide) (by decide)⟩

/-! ### The obligations: tier 1 -/

/-- Settles O28: the three phases one after the other. -/
theorem deriveMPacksCompressesScales : Obligations.DeriveMPacksCompressesScales :=
  fun s => (exec_eq_next .deriveM s).trans (congrArg _ (deriveM_eq s))

/-- Settles O30: a sequence of command words leaves what its commands leave in order. -/
theorem fusedCommandsAreTheirPhases : Obligations.FusedCommandsAreTheirPhases := by
  intro s rest
  have hfused (is : List Instr) (i : Instr) (h : results is s = result i s) :
      run is.length (s.withInputs (is.flatMap asmCmd ++ rest)) = run 1 (s.withInputs (asmCmd i ++ rest)) := by
    rw [run_asmCmds, h, run_succ (step_asmCmd s rest i), run_zero]
  exact ⟨hfused [.packM, .compress, .scaleM] .deriveM (results_phasesM s),
    hfused [.packS, .khash, .scaleS] .deriveS (results_phasesS s)⟩

/-- Settles O31: neither derivation reaches the report of an illegal length. -/
theorem derivationsNeverReport : Obligations.DerivationsNeverReport :=
  fun s i hi => ⟨_, exec_eq_next i s, derive_status hi s⟩

end Sys2Proof.Machine

/-!
The statements about `NOP` and the clear of `STATUS` (spec/45_system.md): one rule for each kind of word the host writes
to `STATUS`, then the obligations.
-/

namespace Sys2Proof.Machine

/-! ### A host write to `STATUS` (rule R110) -/

section
variable {w : Word} (r : Regs)

theorem writeReg_status_of_clear (h : w.getLsbD 0 = true) : writeReg .status w r = r.acknowledge := by
  rw [writeReg, clearsStatus, if_pos h]

theorem writeReg_status_of_keep (h : w.getLsbD 0 = false) : writeReg .status w r = r := by
  rw [writeReg, clearsStatus, if_neg (Bool.eq_false_iff.1 h)]

end

/-! ### The obligations: tier 1 -/

/-- Settles O9: `NOP` leaves the state, and `0x00000010` is in the decoder's class of its own. -/
theorem nopLeavesEveryRegister : Obligations.NopLeavesEveryRegister :=
  ⟨exec_eq_next .nop, by decide, decode_ne_ok_iff.2 ⟨.nopOfBackendOne, rfl⟩⟩

/-- Settles O40: the step stores the write, which acknowledges the error or does nothing by bit 0 of the word. -/
theorem statusClearsByWritingOne : Obligations.StatusClearsByWritingOne := by
  intro s rest w hin
  have hstep : step s = .next ((s.withInputs rest).withRegs (writeReg .status w s.regs)) :=
    step_asmWr (reg := .status) (by decide) hin
  refine ⟨fun hclear => ?_, fun hkeep => ?_⟩
  · rw [hstep, writeReg_status_of_clear s.regs hclear]
    rfl
  · rw [hstep, writeReg_status_of_keep s.regs hkeep]
    rfl

end Sys2Proof.Machine

/-!
The statements about the error report and `STATUS` (spec/60_exceptions.md), in layers: the report written out in whole
registers; the words that report `IllegalCommand`; the one command and length that report `InvalidLength`
(`result_khash_of_illegal`), every other command leaving `STATUS` and the record (`result_status_kept`); that no command
depends on `STATUS`; what a step can do to the record and to a set `ERR`; when a step completes; then the obligations,
each a short use of these.
-/

namespace Sys2Proof.Machine

/-! ### The report in whole registers (rule R113) -/

section
variable (e : Report) (s : State)

theorem raise_eq : raise e s = { s with
    regs := if s.regs.err = 0#1 then { s.regs with err := 1#1, cause := e.code } else s.regs
    reports := e :: s.reports } := by
  rw [raise]
  split <;> rfl

/-- With `ERR` set a report is dropped. -/
theorem raise_regs_of_err (h : s.regs.err = 1#1) : (raise e s).regs = s.regs := by
  rw [raise_regs, h, if_neg (by decide)]

end

/-! ### A word that encodes no command (rules R57 and R115) -/

/-- The nine words of rule R57 as the statement lists them are all the commands' words. -/
theorem encode_mem_nineWords (i : Instr) :
    encode i ∈ [0x00000000#32, 0x00000001#32, 0x00000011#32, 0x00000002#32, 0x00000012#32, 0x00000003#32,
      0x00000013#32, 0x00000004#32, 0x00000014#32] := by
  cases i <;> decide

theorem execute_of_not_command {w : Word} (h : ∀ i, decode w ≠ .ok i) (s : State) :
    execute w s = .next (raise (.illegalCommand w) s) := by
  cases hdec : decode w with
  | ok i => exact absurd hdec (h i)
  | error e => rw [execute, hdec]

/-! ### The one command that reports (rules R114 and R117) -/

section
variable {i : Instr} {s : State}

theorem result_khash_of_illegal (h : 64 < s.regs.mlen.toNat) :
    result .khash s = raise (.invalidLength s.regs.mlen) s :=
  if_pos h

/-- Every command but `KHASH` with an illegal length leaves `STATUS` and the record of reports. -/
theorem result_status_kept (h : i ≠ .khash ∨ s.regs.mlen.toNat ≤ 64) :
    (result i s).reports = s.reports ∧ (result i s).regs.err = s.regs.err ∧
      (result i s).regs.cause = s.regs.cause := by
  cases i with
  | khash =>
    have hstore : result .khash s = _ := khash_withRegs s (h.resolve_left fun hne => hne rfl)
    simp [hstore]
  | deriveS => simp [result, deriveS_eq]
  | _ => simp [result, deriveM]

/-- A command reports an illegal length to `KHASH`, or leaves `STATUS` and the record of reports. -/
theorem result_report_cases (i : Instr) (s : State) :
    (i = .khash ∧ 64 < s.regs.mlen.toNat ∧ result i s = raise (.invalidLength s.regs.mlen) s) ∨
    ((result i s).reports = s.reports ∧ (result i s).regs.err = s.regs.err ∧
      (result i s).regs.cause = s.regs.cause) := by
  by_cases hkhash : i = .khash
  · subst hkhash
    rcases Nat.lt_or_ge 64 s.regs.mlen.toNat with hlen | hlen
    · exact .inl ⟨rfl, hlen, result_khash_of_illegal hlen⟩
    · exact .inr (result_status_kept (.inr hlen))
  · exact .inr (result_status_kept (.inl hkhash))

end

/-! ### No command depends on `STATUS` (rules R24 and R118) -/

/-- `s` with another value in `STATUS`. -/
def State.withStatus (s : State) (e : BitVec 1) (c : BitVec 2) : State := s.withRegs (s.regs.setStatus e c)

/-- No command lists `STATUS` under "reads" (rule R26). -/
theorem status_not_mem_readSet (i : Instr) : Reg.status ∉ readSet i := by
  cases i <;> decide

section
variable (s : State) (e : BitVec 1) (c : BitVec 2)

@[simp] theorem State.withStatus_regs : (s.withStatus e c).regs = s.regs.setStatus e c := (rfl)
@[simp] theorem State.withStatus_reports : (s.withStatus e c).reports = s.reports := (rfl)

/-- Another `STATUS` is no other operand. -/
theorem agreeOn_readSet_withStatus (i : Instr) : AgreeOn (readSet i) (s.withStatus e c).regs s.regs :=
  fun _ hreg => readReg_setStatus s.regs e c fun hstatus => status_not_mem_readSet i (hstatus ▸ hreg)

/-- A command leaves the same in every other register whatever `STATUS` holds: a register it writes comes from its
operands, one it does not write is kept, and an illegal length writes `STATUS` alone. -/
theorem readReg_result_withStatus (i : Instr) {reg : Reg} (hreg : reg ≠ .status) :
    readReg reg (result i (s.withStatus e c)).regs = readReg reg (result i s).regs := by
  have kept : readReg reg (s.withStatus e c).regs = readReg reg s.regs := readReg_setStatus s.regs e c hreg
  by_cases hwritten : reg ∈ writeSet i
  · by_cases hillegal : i = .khash ∧ 64 < s.regs.mlen.toNat
    · obtain ⟨rfl, hlen⟩ := hillegal
      rw [result_khash_of_illegal hlen, result_khash_of_illegal (s := s.withStatus e c) hlen,
        readReg_raise _ _ hreg, readReg_raise _ _ hreg, kept]
    · have hlegal : i = .khash → (s.withStatus e c).regs.mlen.toNat ≤ 64 := fun hi =>
        Nat.le_of_not_lt fun hlen => hillegal ⟨hi, hlen⟩
      exact readReg_result_congr (agreeOn_readSet_withStatus s e c i) hlegal hwritten hreg
  · rw [readReg_result _ hwritten, readReg_result _ hwritten, kept]

/-- What a command adds to the record is told by the length alone. -/
theorem result_reports (i : Instr) : (result i s).reports =
    if i = .khash ∧ 64 < s.regs.mlen.toNat then .invalidLength s.regs.mlen :: s.reports else s.reports := by
  split_ifs with hillegal
  · obtain ⟨rfl, hlen⟩ := hillegal
    rw [result_khash_of_illegal hlen, raise_reports]
  · have hlegal := (not_and_or.1 hillegal).imp_right Nat.le_of_not_lt
    exact (result_status_kept hlegal).1

end

/-- Registers that differ in `STATUS` only are the same once it is clear. -/
theorem acknowledge_congr {r r' : Regs} (h : ∀ reg, reg ≠ .status → readReg reg r = readReg reg r') :
    r.acknowledge = r'.acknowledge := by
  refine regs_ext fun reg => ?_
  by_cases hstatus : reg = .status
  · subst hstatus
    rfl
  · rw [Regs.acknowledge, Regs.acknowledge, readReg_setStatus _ _ _ hstatus, readReg_setStatus _ _ _ hstatus,
      h reg hstatus]

/-! ### What a step does to the record and to `STATUS` (rule R117) -/

section
variable {s t : State}

/-- A step adds no report, or one, by what the host wrote to `CMD`. -/
theorem step_reports (h : step s = .next t) :
    t.reports = s.reports ∨
    (∃ w, Asks s (.write 0#6 w) ∧ (∀ i, decode w ≠ .ok i) ∧ t.reports = .illegalCommand w :: s.reports) ∨
    (Asks s (.write 0#6 (encode .khash)) ∧ 64 < s.regs.mlen.toNat ∧
      t.reports = .invalidLength s.regs.mlen :: s.reports) := by
  cases step_effect h with
  | quiet _ hreports => exact .inl hreports
  | reset _ _ hreports => exact .inl hreports
  | store _ _ _ _ hreports => exact .inl hreports
  | command w i rest ask hdec hnext =>
    obtain rfl := decode_eq_ok_iff.1 hdec
    rcases result_report_cases i (s.withInputs rest) with ⟨rfl, hlen, hraise⟩ | ⟨hreports, -, -⟩
    · exact .inr (.inr ⟨ask, hlen, by rw [hnext, hraise, raise_reports]; rfl⟩)
    · exact .inl (hnext ▸ hreports)
  | illegal w rest ask hdec hnext =>
    exact .inr (.inl ⟨w, ask, hdec, by rw [hnext, raise_reports]; rfl⟩)

/-- A host write that does not acknowledge leaves both fields of `STATUS`. -/
theorem writeReg_status_fields_or_clears (r : Regs) (w : Word) (reg : Reg) :
    ((writeReg reg w r).err = r.err ∧ (writeReg reg w r).cause = r.cause) ∨
    (reg = .status ∧ w.getLsbD 0 = true) := by
  by_cases hstatus : reg = .status
  · subst hstatus
    cases hclear : w.getLsbD 0 with
    | true => exact .inr ⟨rfl, rfl⟩
    | false => exact .inl (by rw [writeReg_status_of_keep r hclear]; exact ⟨rfl, rfl⟩)
  · exact .inl (writeReg_status_fields r w hstatus)

/-- While `ERR` is set, `STATUS` stays until the host clears it or resets the block (rules R110 and R113). -/
theorem step_status_of_err (h : step s = .next t) (herr : s.regs.err = 1#1) :
    t.regs.err = s.regs.err ∧ t.regs.cause = s.regs.cause ∨ Asks s .reset ∨
      ∃ w, Asks s (.write 1#6 w) ∧ w.getLsbD 0 = true := by
  have dropped (e : Report) (rest : List HostEvent) : (raise e (s.withInputs rest)).regs = s.regs :=
    raise_regs_of_err e _ herr
  cases step_effect h with
  | quiet hregs _ => exact .inl (by simp [hregs])
  | reset ask _ _ => exact .inr (.inl ask)
  | store reg w ask hregs _ =>
    rcases writeReg_status_fields_or_clears s.regs w reg with hkept | ⟨rfl, hclear⟩
    · exact .inl (hregs ▸ hkept)
    · exact .inr (.inr ⟨w, ask, hclear⟩)
  | command w i rest _ _ hnext =>
    rcases result_report_cases i (s.withInputs rest) with ⟨-, -, hraise⟩ | ⟨-, hkept⟩
    · exact .inl (by simp [hnext, hraise, dropped])
    · exact .inl (hnext ▸ hkept)
  | illegal w rest _ _ hnext => exact .inl (by simp [hnext, dropped])

end

/-! ### When a step completes (rules R39 and R129) -/

section
variable {s : State}

/-- With no event the block is idle (log entry 2). -/
theorem step_of_no_inputs (hin : s.inputs = []) : step s = .next s := by
  simp [step, nextEvent, hin]

/-- A step completes on a first event exactly when the spec defines it. -/
theorem step_completes_iff {e : HostEvent} {rest : List HostEvent} (hin : s.inputs = e :: rest) :
    Completes (step s) ↔ e.wf = true := by
  refine ⟨fun ⟨t, ht⟩ => ?_, fun he => ?_⟩
  · by_contra he
    obtain ⟨r, hr⟩ := step_of_not_wf hin he
    rw [hr] at ht
    cases ht
  · obtain ⟨t, ht, -⟩ := step_of_wf hin he
    exact ⟨t, ht⟩

end

/-! ### The obligations: tier 2 -/

/-- Settles O8: a word outside the nine decodes to no command, and the report is `raise_eq`. -/
theorem illegalWordReportsIllegalCommand : Obligations.IllegalWordReportsIllegalCommand := by
  intro s rest w hin hw
  have hdec (i : Instr) : decode w ≠ .ok i := fun h => hw (decode_eq_ok_iff.1 h ▸ encode_mem_nineWords i)
  rw [step_of_inputs hin rfl, perform, regWrite_cmd, execute_of_not_command hdec, raise_eq]
  rfl

/-- Settles O20: by the two cases of the length for a command, and by the store for the host's write to `MLEN`. -/
theorem invalidLengthOnlyFromKhash : Obligations.InvalidLengthOnlyFromKhash := by
  refine ⟨fun s hlen => ?_, fun s i h => ?_, fun s rest w hin => ?_⟩
  · rw [exec_eq_next, result_khash_of_illegal hlen, raise_eq]
    rfl
  · exact ⟨_, exec_eq_next i s, result_status_kept h⟩
  · exact ⟨_, step_asmWr (reg := .mlen) (by decide) hin, rfl, rfl, rfl, rfl⟩

/-- Settles O41: the other registers by `readReg_result_withStatus`, the reports by `result_reports`. -/
theorem statusBlocksNoCommand : Obligations.StatusBlocksNoCommand := by
  intro i s e c
  refine ⟨_, _, exec_eq_next i s, exec_eq_next i (s.withStatus e c), ?_, ?_⟩
  · exact acknowledge_congr fun reg hreg => (readReg_result_withStatus s e c i hreg).symm
  · simp [result_reports]

/-- Settles O45. -/
theorem oneAccessRaisesAtMostOneError : Obligations.OneAccessRaisesAtMostOneError := by
  refine fun s t h => ⟨step_reports h, fun herr => ?_⟩
  exact (step_status_of_err h herr).imp_left fun ⟨herr', hcause⟩ => ⟨herr'.trans herr, hcause⟩

/-- Settles O51: there is no fault to stop at. -/
theorem everyDefinedAccessCompletes : Obligations.EveryDefinedAccessCompletes := by
  refine fun s => ⟨?_, step_of_no_inputs, fun f => nomatch f⟩
  cases hin : s.inputs with
  | nil => exact iff_of_true ⟨s, step_of_no_inputs hin⟩ (by simp)
  | cons e rest => simpa using step_completes_iff hin

/-! ### The obligations: tier 1 -/

/-- Settles O39: the first report by `raise_regs`, a later one by `raise_regs_of_err`. -/
theorem reportRecordsTheFirstCause : Obligations.ReportRecordsTheFirstCause := by
  intro e s code
  have hcode : e.code = code := by cases e <;> rfl
  refine ⟨fun hclear => ?_, raise_regs_of_err e s, raise_inputs e s, raise_reads e s⟩
  rw [raise_regs, if_pos hclear, hcode, Regs.setStatus]

end Sys2Proof.Machine

/-!
The statement about reset and hazards (spec/70_reset_and_hazards.md): accesses are performed in order, one per step
(`everyStepTakesOneEvent`), so a run of as many steps as there are events performs them all.
-/

namespace Sys2Proof.Machine

/-! ### A run performs the first events of the list (rules R129 and R144) -/

/-- A run over defined events completes, and has taken one event per step. -/
theorem run_drops_inputs (k : Nat) (s : State) (hk : k ≤ s.inputs.length) (hwf : ∀ e ∈ s.inputs, e.wf = true) :
    ∃ t, run k s = .next t ∧ t.inputs = s.inputs.drop k := by
  induction k generalizing s with
  | zero => exact ⟨s, run_zero s, rfl⟩
  | succ k ih =>
    have hne : s.inputs ≠ [] := List.ne_nil_of_length_pos (by omega)
    obtain ⟨u, hstep, htail, huwf⟩ := everyStepTakesOneEvent s hne hwf
    have hku : k ≤ u.inputs.length := by rw [htail, List.length_tail]; omega
    obtain ⟨t, hrun, hdrop⟩ := ih u hku huwf
    exact ⟨t, (run_succ hstep k).trans hrun, by rw [hdrop, htail, List.drop_tail]⟩

/-! ### The obligations: tier 2 -/

/-- Settles O52: the run takes as many events as there are (`run_drops_inputs`). -/
theorem everyFiniteProgramEnds : Obligations.EveryFiniteProgramEnds := by
  intro s hwf
  obtain ⟨t, hrun, hdrop⟩ := run_drops_inputs s.inputs.length s le_rfl hwf
  exact ⟨t, hrun, hdrop.trans List.drop_length⟩

end Sys2Proof.Machine
